-- ==== Sys2Proof/Word.lean ====
section
/-! DEFINITION. The word types of the block: bytes, 16-bit halves, 32-bit register words and 24-bit command words. -/

namespace Sys2Proof

/-- One character of a frame or payload (00_scope.md R13). -/
abbrev Byte := BitVec 8

/-- A 16-bit value: a LENID word, a checksum, a raw reading, the data of a response. -/
abbrev Half := BitVec 16

/-- A register of the register space, always 32 bits wide (20_memory.md R81). -/
abbrev Word := BitVec 32

/-- A command word (30_encoding.md R100). -/
abbrev CmdWord := BitVec 24

/-- A word address of the register space (10_state.md R48). -/
abbrev RegAddr := BitVec 6

end Sys2Proof
end

