-- ==== Sys2Proof/Syntax.lean ====
section
/-! DEFINITION. The instructions of spec/opcode_table.json, and the two port encodings that carry them. -/

namespace Sys2Proof

/-- One constructor per row of the opcode table. Operands are assembled as 30_encoding.md R103 says; bits that it
ignores are no part of an instruction (log 15). -/
inductive Instr where
  /-- 45_host_commands.md R301 -/
  | nop
  /-- 44_acquisition_fsm.md R252 -/
  | poll
  /-- 40_checksum_codec.md R130; v = ARG[11:0] -/
  | lchkGen (v : BitVec 12)
  /-- 40_checksum_codec.md R131; f = ARG[15:0] -/
  | lchkChk (f : Half)
  /-- 40_checksum_codec.md R132 -/
  | fchkClr
  /-- 40_checksum_codec.md R133; b = ARG[7:0] -/
  | fchkAdd (b : Byte)
  /-- 40_checksum_codec.md R134 -/
  | fchkGet
  /-- 40_checksum_codec.md R135; c = ARG[15:0] -/
  | fchkChk (c : Half)
  /-- 45_host_commands.md R302; the whole word, so that no two illegal words are confused -/
  | illegal (word : CmdWord)
  /-- 45_host_commands.md R303 -/
  | regRd (addr : RegAddr)
  /-- 45_host_commands.md R304 -/
  | regWr (addr : RegAddr) (wdata : Word)
  deriving DecidableEq, Repr

/-- What carries an instruction to the block: the command port (format CMD, 30_encoding.md R100) or the register port
(format REG, 30_encoding.md R105). -/
inductive PortWord where
  | cmd (word : CmdWord)
  | reg (we : Bool) (addr : RegAddr) (wdata : Word)
  deriving DecidableEq, Repr

end Sys2Proof
end

