-- ==== Sys2Proof/WellFormed.lean ====
section
/-! DEFINITION. Which instructions an encoding exists for: the operand types bound everything but the word of ILLEGAL. -/

namespace Sys2Proof

/-- A command word is illegal when OP is in 0x8..0xF or RSV is not 0 (30_encoding.md R104). -/
def wordIsIllegal (w : CmdWord) : Bool :=
  8#4 ≤ w.extractLsb' 20 4 || w.extractLsb' 16 4 != 0#4

/-- ILLEGAL carries an illegal word; every other instruction is well formed by its operands' types. -/
def Instr.wellFormed : Instr → Bool
  | .illegal w => wordIsIllegal w
  | .nop => true
  | .poll => true
  | .lchkGen _ => true
  | .lchkChk _ => true
  | .fchkClr => true
  | .fchkAdd _ => true
  | .fchkGet => true
  | .fchkChk _ => true
  | .regRd _ => true
  | .regWr _ _ => true

end Sys2Proof
end

