-- ==== Sys2Proof/Decode.lean ====
section
/-! DEFINITION. Decoding and encoding of command words and register-port accesses (30_encoding.md R100..R106). Decoding
is total: every 24-bit word is one of the eight commands or ILLEGAL (R104), every port access a read or a write (R105). -/

namespace Sys2Proof

/-- OP, bits [23:20] (30_encoding.md R100). -/
def cmdOp (w : CmdWord) : BitVec 4 := w.extractLsb' 20 4

/-- RSV, bits [19:16] (30_encoding.md R100). -/
def cmdRsv (w : CmdWord) : BitVec 4 := w.extractLsb' 16 4

/-- ARG, bits [15:0] (30_encoding.md R100). -/
def cmdArg (w : CmdWord) : Half := w.extractLsb' 0 16

/-- v = ARG[11:0], the operand of LCHK.GEN (30_encoding.md R103). -/
def argLength (arg : Half) : BitVec 12 := arg.extractLsb' 0 12

/-- b = ARG[7:0], the operand of FCHK.ADD (30_encoding.md R103). -/
def argChar (arg : Half) : Byte := arg.extractLsb' 0 8

/-- The opcode map (30_encoding.md R102), with RSV ≠ 0 illegal (R104). -/
def decodeCmd (w : CmdWord) : Instr :=
  if cmdRsv w = 0#4 then
    match (cmdOp w).toNat with
    | 0 => .nop
    | 1 => .poll
    | 2 => .lchkGen (argLength (cmdArg w))
    | 3 => .lchkChk (cmdArg w)
    | 4 => .fchkClr
    | 5 => .fchkAdd (argChar (cmdArg w))
    | 6 => .fchkGet
    | 7 => .fchkChk (cmdArg w)
    | _ => .illegal w
  else .illegal w

/-- The register port's operation is selected by reg_we (30_encoding.md R105). -/
def decodeReg (we : Bool) (addr : RegAddr) (wdata : Word) : Instr :=
  if we then .regWr addr wdata else .regRd addr

/-- The instruction a port carries. -/
def decode : PortWord → Instr
  | .cmd w => decodeCmd w
  | .reg we addr wdata => decodeReg we addr wdata

/-- A command word with RSV = 0 (30_encoding.md R100). -/
def cmdWordOf (op : BitVec 4) (arg : Half) : CmdWord := op ++ 0#4 ++ arg

/-- The port encoding of an instruction, with ignored bits 0 (30_encoding.md R102, R103, R105). -/
def encode : Instr → PortWord
  | .nop => .cmd (cmdWordOf 0x0#4 0#16)
  | .poll => .cmd (cmdWordOf 0x1#4 0#16)
  | .lchkGen v => .cmd (cmdWordOf 0x2#4 (0#4 ++ v))
  | .lchkChk f => .cmd (cmdWordOf 0x3#4 f)
  | .fchkClr => .cmd (cmdWordOf 0x4#4 0#16)
  | .fchkAdd b => .cmd (cmdWordOf 0x5#4 (0#8 ++ b))
  | .fchkGet => .cmd (cmdWordOf 0x6#4 0#16)
  | .fchkChk c => .cmd (cmdWordOf 0x7#4 c)
  | .illegal w => .cmd w
  | .regRd addr => .reg false addr 0#32
  | .regWr addr wdata => .reg true addr wdata

/-- The port word a row of spec/opcode_table.json numbers as nbits bits. The CMD rows have 24. The table gives the REG
rows no word: it numbers each signal of the register port from its own bit 0, so REG.RD spans the one byte of reg_addr
and REG.WR the four bytes of reg_wdata, with reg_addr in bits [5:0] of either (log 15). -/
def tablePort (nbits w : Nat) : Option PortWord :=
  match nbits with
  | 24 => some (.cmd (BitVec.ofNat 24 w))
  | 8 => some (.reg false (BitVec.ofNat 6 w) 0#32)
  | 32 => some (.reg true (BitVec.ofNat 6 w) (BitVec.ofNat 32 w))
  | _ => none

/-- What decode reads from an instruction whose bits, numbered as the opcode table numbers them, are w. -/
def decodeTableWord (nbits w : Nat) : Option Instr := (tablePort nbits w).map decode

end Sys2Proof
end

