-- ==== Sys2Proof/Config.lean ====
section
/-! DEFINITION. What an implementation fixes (the parameters of 00_scope.md R8), the constants of R6 and R7, the
input vector of one period (10_state.md R31), and the free values: opaque constants that nothing in Lean can evaluate. -/

namespace Sys2Proof

/-- The status classes of 42_frame_validation.md R188; the reserved codes 10..14 are never produced and have no
constructor (93_implementation_defined.md U8; log 12). -/
inductive StatusClass where
  | ok
  | version
  | checksum
  | lengthChecksum
  | invalidCommand
  | commandFormat
  | infoDataInvalid
  | address
  | batteryCommunication
  | unknown
  | none
  deriving DecidableEq, Repr, Inhabited

/-- The eight sub-kinds that STATUS_CLASS may name, classes 1..8 (00_scope.md R8). -/
def StatusClass.isSubKind : StatusClass → Bool
  | .ok | .unknown | .none => false
  | .version | .checksum | .lengthChecksum | .invalidCommand | .commandFormat | .infoDataInvalid
  | .address | .batteryCommunication => true

/-- The parameters a model takes as arguments (00_scope.md R8). Two-byte codes are packed first character high, as
10_state.md R52 packs them. STATUS_CLASS is a list of entries, of which a legal one holds each code once (log 19). -/
structure Params where
  pStatus : List Byte
  pA : List Byte
  pB : List Byte
  payloadMax : Nat
  okCode : Half
  statusClass : List (Half × StatusClass)
  stepBudgetRst : BitVec 16
  pollBudgetRst : BitVec 24
  rxBufMax : Nat
  deriving DecidableEq, Repr, Inhabited

/-- DELIM, carriage return (00_scope.md R6). -/
def Config.delim : Byte := 0x0D#8

/-- CYCLE_LEN, the six request entries of the polling cycle (00_scope.md R6). -/
def Config.cycleLen : Nat := 6

/-- BODY_MIN (00_scope.md R6). -/
def Config.bodyMin : Nat := 118

/-- CAP_END, where the capacity window ends (00_scope.md R7). -/
def Config.capEnd : Nat := 128

/-- MIN_FRAME_LEN, counting the delimiter (00_scope.md R7). -/
def Config.minFrameLen : Nat := 18

/-- The constraints of 00_scope.md R8 on one payload: length 1..PAYLOAD_MAX, last byte 0x0D. -/
def Params.legalPayload (p : Params) (bytes : List Byte) : Bool :=
  bytes.length ≤ p.payloadMax && bytes.getLast? == some Config.delim

/-- A character of OK_CODE lies in 0x20..0x7E (00_scope.md R8). -/
def legalCodeChar (b : Byte) : Bool := 0x20#8 ≤ b && b ≤ 0x7E#8

/-- The legal values of 00_scope.md R8. -/
def Params.legal (p : Params) : Bool :=
  p.legalPayload p.pStatus && p.legalPayload p.pA && p.legalPayload p.pB && decide (p.payloadMax ≤ 255)
    && legalCodeChar (p.okCode.extractLsb' 8 8) && legalCodeChar (p.okCode.extractLsb' 0 8)
    && p.statusClass.all (fun e => e.2.isSubKind) && decide (p.statusClass.map Prod.fst).Nodup
    && p.stepBudgetRst != 0#16 && decide (18 ≤ p.rxBufMax) && decide (p.rxBufMax ≤ 65535)

/-- The values 95_test_vectors.md §0.1 runs its vectors with: legal placeholders, for tests and witnesses only. The
defaults of OK_CODE and STATUS_CLASS are general knowledge, not the device's (93_implementation_defined.md GK1, GK2; log 20). -/
def Params.vectors : Params where
  pStatus := [0x53#8, 0x0D#8]
  pA := [0x41#8, 0x0D#8]
  pB := [0x42#8, 0x0D#8]
  payloadMax := 2
  okCode := 0x3030#16
  statusClass := [(0x3031#16, .version), (0x3032#16, .checksum), (0x3033#16, .lengthChecksum),
    (0x3034#16, .invalidCommand), (0x3035#16, .commandFormat), (0x3036#16, .infoDataInvalid),
    (0x3930#16, .address), (0x3931#16, .batteryCommunication)]
  stepBudgetRst := 3#16
  pollBudgetRst := 0#24
  rxBufMax := 4113

/-- A free value: some parameters, of which nothing is known (log 3). -/
opaque Config.rawParams : Params

/-- The parameters of the machine that State.reset describes: any legal ones (00_scope.md R10; log 3). -/
def Config.params : Params := if Config.rawParams.legal then Config.rawParams else Params.vectors

/-- The input ports of one period (10_state.md R31); clk is the step itself. -/
structure Inputs where
  rst : Bool
  tick : Bool
  cmdValid : Bool
  cmdWord : CmdWord
  regAddr : RegAddr
  regWe : Bool
  regWdata : Word
  txReady : Bool
  txDrained : Bool
  txErr : Bool
  rxValid : Bool
  rxData : Byte
  rxErr : Bool
  linkOk : Bool
  deriving DecidableEq, Repr, Inhabited

/-- A free value for every period: what the environment drives when nothing says what it drives (00_scope.md R3, R14:
the model draws the inputs freely in every clock; log 1). -/
opaque Config.freeInput : Nat → Inputs

end Sys2Proof
end

