-- ==== Sys2Proof/Machine/State.lean ====
section
/-! DEFINITION. The state of the machine as plain data: the block's state elements (10_state.md R34..R46), which are the
spec's s_k, and beside them what step needs and the spec passes as arguments: the parameters and the inputs. -/

namespace Sys2Proof.Machine

/-- The five states of fsm; the encodings 5..7 are never produced (10_state.md R34; log 12). -/
inductive Fsm where
  | idle
  | sending
  | awaiting
  | validating
  | advance
  deriving DecidableEq, Repr

/-- The state of the response buffer; the encoding 3 is never produced (10_state.md R39; log 12). -/
inductive RxState where
  | capturing
  | complete
  | null
  deriving DecidableEq, Repr

/-- Response codes (60_exceptions.md R320); none is 15, which only last_outcome holds, after reset. -/
inductive RespCode where
  | ok
  | failConnection
  | failStepTimeout
  | failCycleExhausted
  | failPollTimeout
  | failTransportIo
  | illegal
  | none
  deriving DecidableEq, Repr

/-- Reason codes (42_frame_validation.md R181); none is 15, the reset value. -/
inductive Reason where
  | valid
  | noResponse
  | nonAscii
  | tooShort
  | statusNotOk
  | lenidFormat
  | lenidChecksum
  | fchkFormat
  | fchkMismatch
  | bodyShort
  | bodyNoCapacity
  | bodyFormat
  | none
  deriving DecidableEq, Repr

/-- The bytes of RXB that differ from what an unlisted byte reads as, at strictly rising offsets. -/
abbrev Memory := List Host.Cell

/-- The 28 values of a reading (10_state.md R43; 41_telemetry_decoder.md R153): taux[j-1] is auxiliary temperature j and
cell[i-1] is cell voltage i. -/
structure Reading where
  soc : Half
  volt : Half
  cur : Half
  soh : Half
  energy : Word
  tenv : Half
  tcell : Half
  tmos : Half
  taux : Vector Half 4
  cell : Vector Half 16
  deriving DecidableEq, Repr

/-- Every res_* register at 0 (10_state.md R56). -/
def Reading.zero : Reading where
  soc := 0#16
  volt := 0#16
  cur := 0#16
  soh := 0#16
  energy := 0#32
  tenv := 0#16
  tcell := 0#16
  tmos := 0#16
  taux := #v[0#16, 0#16, 0#16, 0#16]
  cell := #v[0#16, 0#16, 0#16, 0#16, 0#16, 0#16, 0#16, 0#16, 0#16, 0#16, 0#16, 0#16, 0#16, 0#16, 0#16, 0#16]

/-- The diagnostic registers (10_state.md R45). -/
structure Diag where
  rxlen : Half
  cid2 : Half
  lenid : Half
  lenidP : Bool
  fchkRx : Half
  fchkRxP : Bool
  fchkCalc : Half
  fchkCalcP : Bool
  deriving DecidableEq, Repr

/-- Every d_* value and flag at 0 (10_state.md R56; 42_frame_validation.md R197). -/
def Diag.zero : Diag where
  rxlen := 0#16
  cid2 := 0#16
  lenid := 0#16
  lenidP := false
  fchkRx := 0#16
  fchkRxP := false
  fchkCalc := 0#16
  fchkCalcP := false

/-- The block's state elements: the s_k of 00_scope.md R14. -/
structure Block where
  /-- 10_state.md R34 -/
  fsm : Fsm
  /-- 10_state.md R35, R36: 0..6; the value 7 is never produced (log 12) -/
  pos : Fin 7
  /-- 10_state.md R37 -/
  stepT : BitVec 16
  /-- 10_state.md R37 -/
  pollT : BitVec 24
  /-- 10_state.md R38 (log 13) -/
  sendIdx : Nat
  /-- 10_state.md R39, the array RXB -/
  rxb : Memory
  /-- 10_state.md R39 (log 13) -/
  rxN : Nat
  /-- 10_state.md R39 -/
  rxState : RxState
  /-- 10_state.md R40 -/
  attempts : BitVec 3
  /-- 10_state.md R41 -/
  facc : Half
  /-- 10_state.md R42, R50 -/
  stepBudget : BitVec 16
  /-- 10_state.md R42, R51 -/
  pollBudget : BitVec 24
  /-- 10_state.md R43 -/
  res : Reading
  /-- 10_state.md R43 -/
  capRaw : Half
  /-- 10_state.md R44 -/
  resValid : Bool
  /-- 10_state.md R44 -/
  lastOutcome : RespCode
  /-- 10_state.md R44 -/
  lastReason : Reason
  /-- 10_state.md R44 -/
  lastClass : StatusClass
  /-- 10_state.md R45 -/
  diag : Diag
  /-- 10_state.md R46 -/
  respValid : Bool
  /-- 10_state.md R46 -/
  respCode : RespCode
  /-- 10_state.md R46 -/
  respData : Half
  deriving DecidableEq, Repr

/-- The block's state, and what a step needs beside it: the parameters, which no step writes (10_state.md R47; log 2), the
input vectors of the coming periods, oldest first, after which the inputs are free values (log 1), the number of periods
passed, and what the register port showed in the last one (log 4). -/
structure State extends Block where
  params : Params
  script : List Inputs
  period : Nat
  regRdata : Word
  deriving DecidableEq, Repr

/-- Why the machine stops. None of these is raised in a state that meets Sys2Proof.Safety.Inv, so none is raised in a run
from reset; each is safe. -/
inductive Fault where
  /-- Raised by a SENDING period with pos = 6: PAYLOAD has the entries 0..5 (00_scope.md R9). Safe (log 9). -/
  | romAddress
  /-- Raised by a capture or a validation that reaches beyond RX_BUF_MAX bytes of RXB (10_state.md R39). Safe (log 10). -/
  | rxbAddress
  /-- Raised by a failed validation with pos = 6: pos = 7 is never produced (10_state.md R36). Safe (log 11). -/
  | positionRange
  deriving DecidableEq, Repr

/-- Why an instruction has no meaning in the model. -/
inductive Refusal where
  /-- Raised by an arm of exec whose instruction the model does not have; no arm is one. Safe. -/
  | notModelled (mnemonic : String)
  deriving DecidableEq, Repr

/-- The reset value of every state element, for given parameters (10_state.md R56). RXB is unspecified there: nothing is
listed (DESIGN CHOICE, log 6). -/
def Block.reset (p : Params) : Block where
  fsm := .idle
  pos := 0
  stepT := 0#16
  pollT := 0#24
  sendIdx := 0
  rxb := []
  rxN := 0
  rxState := .capturing
  attempts := 0#3
  facc := 0#16
  stepBudget := p.stepBudgetRst
  pollBudget := p.pollBudgetRst
  res := Reading.zero
  capRaw := 0#16
  resValid := false
  lastOutcome := .none
  lastReason := .none
  lastClass := .none
  diag := Diag.zero
  respValid := false
  respCode := .ok
  respData := 0#16

/-- The state after reset of a block with the parameters p, with no input vector given yet. -/
def State.resetWith (p : Params) : State where
  toBlock := Block.reset p
  params := p
  script := []
  period := 0
  regRdata := 0#32

/-- The machine right after reset, with any legal parameters (10_state.md R56; log 3, log 17). -/
def State.reset : State := State.resetWith Config.params

end Sys2Proof.Machine
end

