-- ==== Sys2Proof/Machine/Ops.lean ====
section
/-! DEFINITION. The operations every meaning is written with: the bytes of RXB, the inputs of a period, a response, the
end of a poll (which is what this block has in place of taking an exception, 60_exceptions.md R324), entering a state of
the state machine, the timers. -/

namespace Sys2Proof.Machine

/-- What a meaning or a part of a period answers. -/
abbrev Result := Host.Outcome State Fault Refusal

/-- Go on with f where r answers a next state; a stop stays a stop. -/
def andThen (r : Result) (f : State → Result) : Result :=
  match r with
  | .next s => f s
  | .fault e => .fault e
  | .refused e => .refused e

/-- What a byte of RXB that is not listed reads as (DESIGN CHOICE, unsafe, log 5). -/
def Memory.unlisted : Byte := 0x00#8

/-- RXB[j]. -/
def Memory.read : Memory → Nat → Byte
  | [], _ => Memory.unlisted
  | (k, v) :: m, a => if k = a then v else Memory.read m a

/-- RXB[j]' ← b, keeping the canonical form. -/
def Memory.write : Memory → Nat → Byte → Memory
  | [], a, b => if b = Memory.unlisted then [] else [(a, b)]
  | (k, v) :: m, a, b =>
    if a < k then (if b = Memory.unlisted then (k, v) :: m else (a, b) :: (k, v) :: m)
    else if a = k then (if b = Memory.unlisted then m else (a, b) :: m)
    else (k, v) :: Memory.write m a b

/-- The canonical form: offsets strictly rising, no entry equal to what an unlisted byte reads as. -/
def Memory.wf : Memory → Bool
  | [] => true
  | (k, v) :: m => v != Memory.unlisted && m.all (fun c => decide (k < c.1)) && Memory.wf m

/-- RXB[0 : n], in arrival order (20_memory.md R86). -/
def Memory.upTo (m : Memory) (n : Nat) : List Byte := (List.range n).map (Memory.read m)

/-- The input vector i_k of the period that begins in this state (00_scope.md R14): the oldest of the script, or a free
value where the script is empty (log 1). -/
def State.input (s : State) : Inputs :=
  match s.script with
  | [] => Config.freeInput s.period
  | i :: _ => i

/-- The edge that ends a period: its input vector is used up. -/
def State.endPeriod (s : State) : State :=
  { s with script := s.script.tail, period := s.period + 1 }

/-- resp_valid is 0 in every period that no response is made in (45_host_commands.md R300; 44_acquisition_fsm.md R251). -/
def State.beginPeriod (s : State) : State := { s with respValid := false }

/-- The block in the reset state of 10_state.md R56, whatever it was (70_reset_and_hazards.md R350). -/
def State.resetBlock (s : State) : State := { s with toBlock := Block.reset s.params }

/-- respond(code, data) (45_host_commands.md R300). -/
def State.respond (s : State) (code : RespCode) (data : Half) : State :=
  { s with respValid := true, respCode := code, respData := data }

/-- end_poll(code) (44_acquisition_fsm.md R266), with attempts' already in place: every failure of a poll and its success
end here, in IDLE, with what 60_exceptions.md R324 says is recorded. -/
def State.endPoll (s : State) (code : RespCode) : State :=
  { s.respond code (0#13 ++ s.attempts) with lastOutcome := code, fsm := .idle }

/-- A command is accepted only in IDLE; presented elsewhere it has no effect (30_encoding.md R101; 45_host_commands.md
R305; log 7). -/
def State.whenAccepted (s : State) (effect : State → State) : State :=
  if s.fsm = .idle then effect s else s

/-- Entry to SENDING (43_transport_framing.md R223). -/
def State.enterSending (s : State) : State :=
  { s with fsm := .sending, sendIdx := 0, stepT := 0#16, rxN := 0, rxState := .capturing }

/-- Entry to AWAITING (44_acquisition_fsm.md R256). -/
def State.enterAwaiting (s : State) : State := { s with fsm := .awaiting, stepT := 0#16 }

/-- st = step_t + tick, as a number (60_exceptions.md R330; log 14). -/
def State.stepSum (s : State) (i : Inputs) : Nat := s.stepT.toNat + i.tick.toNat

/-- min(poll_t + tick, 2^24 - 1) (60_exceptions.md R331). -/
def State.pollSum (s : State) (i : Inputs) : Nat := min (s.pollT.toNat + i.tick.toNat) (2 ^ 24 - 1)

/-- poll_t' in a period that does not begin in IDLE (60_exceptions.md R331; log 21). -/
def State.countPoll (s : State) (i : Inputs) : State := { s with pollT := BitVec.ofNat 24 (s.pollSum i) }

/-- Both timers, in a period of SENDING, AWAITING or ADVANCE (44_acquisition_fsm.md R251). -/
def State.countTicks (s : State) (i : Inputs) : State :=
  { s.countPoll i with stepT := BitVec.ofNat 16 (s.stepSum i) }

end Sys2Proof.Machine
end

