-- ==== Sys2Proof/Machine/Flags.lean ====
section
/-! DEFINITION. The codes, flags and conditions the spec computes from the state: the numbers of the enumerated types, the
STATUS word (10_state.md R49), BUSY (R54), the two deadlines (60_exceptions.md R332, R333). -/

namespace Sys2Proof.Machine

/-- The encoding of fsm (10_state.md R34). -/
def Fsm.code : Fsm → BitVec 3
  | .idle => 0#3
  | .sending => 1#3
  | .awaiting => 2#3
  | .validating => 3#3
  | .advance => 4#3

/-- The encoding of a response code (60_exceptions.md R320). -/
def RespCode.code : RespCode → BitVec 4
  | .ok => 0#4
  | .failConnection => 1#4
  | .failStepTimeout => 2#4
  | .failCycleExhausted => 3#4
  | .failPollTimeout => 4#4
  | .failTransportIo => 5#4
  | .illegal => 6#4
  | .none => 15#4

/-- The encoding of a reason code (42_frame_validation.md R181). -/
def Reason.code : Reason → BitVec 4
  | .valid => 0#4
  | .noResponse => 1#4
  | .nonAscii => 2#4
  | .tooShort => 3#4
  | .statusNotOk => 4#4
  | .lenidFormat => 5#4
  | .lenidChecksum => 6#4
  | .fchkFormat => 7#4
  | .fchkMismatch => 8#4
  | .bodyShort => 9#4
  | .bodyNoCapacity => 10#4
  | .bodyFormat => 11#4
  | .none => 15#4

/-- The encoding of a status class (42_frame_validation.md R188). -/
def classCode : StatusClass → BitVec 4
  | .ok => 0#4
  | .version => 1#4
  | .checksum => 2#4
  | .lengthChecksum => 3#4
  | .invalidCommand => 4#4
  | .commandFormat => 5#4
  | .infoDataInvalid => 6#4
  | .address => 7#4
  | .batteryCommunication => 8#4
  | .unknown => 9#4
  | .none => 15#4

/-- One bit of a flag. -/
def bit (b : Bool) : BitVec 1 := BitVec.ofBool b

/-- cmd_ready, the inverse of BUSY (10_state.md R32, R49). -/
def State.cmdReady (s : State) : Bool := decide (s.fsm = .idle)

/-- pos as the 3-bit register of 10_state.md R35. -/
def State.posCode (s : State) : BitVec 3 := BitVec.ofNat 3 s.pos.val

/-- STATUS (10_state.md R49), from bit 31 down. -/
def State.statusWord (s : State) : Word :=
  0#12 ++ classCode s.lastClass ++ s.lastReason.code ++ s.lastOutcome.code ++ bit s.resValid ++ s.posCode
    ++ bit (!s.cmdReady) ++ s.fsm.code

/-- outer: the outer deadline holds in this period (60_exceptions.md R333). -/
def State.outerDue (s : State) (i : Inputs) : Bool :=
  s.pollBudget != 0#24 && decide (s.pollBudget.toNat ≤ s.pollSum i)

/-- st ≥ step_budget: the step budget is used up in this period (60_exceptions.md R332). -/
def State.stepDue (s : State) (i : Inputs) : Bool := decide (s.stepBudget.toNat ≤ s.stepSum i)

end Sys2Proof.Machine
end

