-- ==== Sys2Proof/Machine/Framing.lean ====
section
/-! DEFINITION. The request sender and the response capture (43_transport_framing.md), and the output ports (10_state.md
R32, R33). -/

namespace Sys2Proof.Machine

/-- PAYLOAD[k] for k = 0..5 (00_scope.md R9); there is no PAYLOAD[6]. -/
def payload (p : Params) (k : Nat) : Option (List Byte) :=
  [p.pStatus, p.pStatus, p.pStatus, p.pA, p.pB, p.pStatus][k]?

/-- The request of the current attempt, PAYLOAD[pos] (43_transport_framing.md R221). -/
def State.request (s : State) : Option (List Byte) := payload s.params s.pos.val

/-- tx_valid (10_state.md R32); 0 where PAYLOAD[pos] does not exist (log 9). -/
def State.txValid (s : State) : Bool :=
  decide (s.fsm = .sending) && decide (s.sendIdx < (s.request.getD []).length)

/-- tx_data (10_state.md R32). -/
def State.txData (s : State) : Byte :=
  if s.txValid then (s.request.getD []).getD s.sendIdx 0x00#8 else 0x00#8

/-- A TX transfer of the period advances send_idx, whatever else the period does (43_transport_framing.md R220, R224). -/
def State.transfer (s : State) (i : Inputs) : State :=
  if s.txValid && i.txReady then { s with sendIdx := s.sendIdx + 1 } else s

/-- The capture step (43_transport_framing.md R227), for a period of SENDING or AWAITING: outside rx_state = CAPTURING a
byte is dropped (R230), a byte for a full buffer is the overflow of R228. -/
def State.capture (s : State) (i : Inputs) : Result :=
  if s.rxState = .capturing ∧ i.rxValid = true then
    if s.rxN = s.params.rxBufMax then .next { s with rxState := .null }
    else if s.params.rxBufMax < s.rxN then .fault .rxbAddress
    else .next { s with
      rxb := Memory.write s.rxb s.rxN i.rxData
      rxN := s.rxN + 1
      rxState := if i.rxData = Config.delim then .complete else .capturing }
  else .next s

/-- The captured bytes RXB[0:rx_n]. -/
def State.captured (s : State) : List Byte := Memory.upTo s.rxb s.rxN

/-- T of a VALIDATING period: the captured frame, or ⊥ (44_acquisition_fsm.md R261). -/
def State.frame (s : State) : Option (List Byte) :=
  if s.rxState = .complete then some s.captured else none

/-- The output ports of a period (10_state.md R32); reg_rdata is State.readReg of the period's reg_addr (R33). -/
structure Outputs where
  cmdReady : Bool
  respValid : Bool
  respCode : BitVec 4
  respData : Half
  txValid : Bool
  txData : Byte
  deriving DecidableEq, Repr

/-- The output ports as a function of the state (10_state.md R32). -/
def State.outputs (s : State) : Outputs where
  cmdReady := s.cmdReady
  respValid := s.respValid
  respCode := s.respCode.code
  respData := s.respData
  txValid := s.txValid
  txData := s.txData

end Sys2Proof.Machine
end

