-- ==== Sys2Proof/Machine/Checksum.lean ====
section
/-! DEFINITION. Hex digits (00_scope.md R16) and the two checksum functions (40_checksum_codec.md R120..R124). -/

namespace Sys2Proof.Machine

/-- is_hex: '0'..'9', 'A'..'F', 'a'..'f' (00_scope.md R16). -/
def isHex (b : Byte) : Bool :=
  (0x30#8 ≤ b && b ≤ 0x39#8) || (0x41#8 ≤ b && b ≤ 0x46#8) || (0x61#8 ≤ b && b ≤ 0x66#8)

/-- hexval, on a byte that satisfies is_hex (00_scope.md R16). -/
def hexVal (b : Byte) : Byte :=
  if b ≤ 0x39#8 then b - 0x30#8 else if b ≤ 0x46#8 then b - 0x37#8 else b - 0x57#8

/-- hex4: four digits, the first most significant (00_scope.md R16). -/
def hex4 (c0 c1 c2 c3 : Byte) : Half :=
  (hexVal c0).setWidth 16 * 4096#16 + (hexVal c1).setWidth 16 * 256#16 + (hexVal c2).setWidth 16 * 16#16
    + (hexVal c3).setWidth 16

/-- The 16-bit wrapping sum of byte values (40_checksum_codec.md R120). -/
def byteSum (bytes : List Byte) : Half := bytes.foldl (fun sum b => sum + b.setWidth 16) 0#16

/-- Complement the 16-bit sum and add 1; the carry out of bit 15 is discarded (40_checksum_codec.md R120, R121). -/
def complementSum (sum : Half) : Half := ~~~sum + 1#16

/-- frame_checksum (40_checksum_codec.md R120). -/
def frameChecksum (bytes : List Byte) : Half := complementSum (byteSum bytes)

/-- length_checksum (40_checksum_codec.md R122): the nibble sum is masked to 4 bits, complemented within 4 bits, and 1 is
added; the carry is dropped (R123). -/
def lengthChecksum (v : BitVec 12) : Half :=
  (~~~(v.extractLsb' 0 4 + v.extractLsb' 4 4 + v.extractLsb' 8 4) + 1#4) ++ v

/-- LEN_OK (40_checksum_codec.md R124). -/
def lenOk (f : Half) : Bool := lengthChecksum (f.extractLsb' 0 12) = f

end Sys2Proof.Machine
end

