-- ==== Sys2Proof/Machine/Operands.lean ====
section
/-! DEFINITION. The operand forms: a register of the register space by its word address (10_state.md R48..R53), and a
field of a frame by its offset (00_scope.md R13, R17; 41_telemetry_decoder.md R151). -/

namespace Sys2Proof.Machine

/-- T[i], for an offset i < len(T); every use is guarded by a length check (log 18). -/
def byteAt (t : List Byte) (i : Nat) : Byte := t.getD i 0x00#8

/-- T[a:b] (00_scope.md R13). -/
def slice (t : List Byte) (a b : Nat) : List Byte := (t.drop a).take (b - a)

/-- hex4(T[o : o+4]). -/
def hexAt (t : List Byte) (o : Nat) : Half :=
  hex4 (byteAt t o) (byteAt t (o + 1)) (byteAt t (o + 2)) (byteAt t (o + 3))

/-- FIELD(o): the field at body offset o, which is frame offset 13 + o (41_telemetry_decoder.md R151). -/
def field (t : List Byte) (o : Nat) : Half := hexAt t (13 + o)

/-- A 16-bit value in bits [15:0] of a register, bits [31:16] reading 0. -/
def low16 (v : Half) : Word := v.setWidth 32

/-- A 16-bit diagnostic with its presence flag in bit 16 (10_state.md R48). -/
def diagWord (v : Half) (p : Bool) : Word := 0#15 ++ bit p ++ v

/-- R[a] (20_memory.md R82), per the register map of 10_state.md R48; reserved addresses read 0 (R53). -/
def State.readReg (s : State) (a : RegAddr) : Word :=
  match a.toNat with
  | 0x00 => s.statusWord
  | 0x01 => low16 s.stepBudget
  | 0x02 => s.pollBudget.setWidth 32
  | 0x03 => low16 s.facc
  | 0x04 => low16 s.stepT
  | 0x05 => s.pollT.setWidth 32
  | 0x06 => s.attempts.setWidth 32
  | 0x07 => low16 s.diag.rxlen
  | 0x08 => low16 s.diag.cid2
  | 0x09 => diagWord s.diag.lenid s.diag.lenidP
  | 0x0A => diagWord s.diag.fchkRx s.diag.fchkRxP
  | 0x0B => diagWord s.diag.fchkCalc s.diag.fchkCalcP
  | 0x0C => low16 s.capRaw
  | 0x10 => low16 s.res.soc
  | 0x11 => low16 s.res.volt
  | 0x12 => s.res.cur.signExtend 32
  | 0x13 => low16 s.res.soh
  | 0x14 => s.res.energy
  | 0x15 => low16 s.res.tenv
  | 0x16 => low16 s.res.tcell
  | 0x17 => low16 s.res.tmos
  | n =>
    if 0x18 ≤ n ∧ n ≤ 0x1B then low16 (s.res.taux.toList.getD (n - 0x18) 0#16)
    else if 0x1C ≤ n ∧ n ≤ 0x2B then low16 (s.res.cell.toList.getD (n - 0x1C) 0#16)
    else 0#32

/-- max(w[15:0], 1), what a write of STEP_BUDGET stores (10_state.md R50). -/
def stepBudgetOf (w : Word) : BitVec 16 :=
  if w.extractLsb' 0 16 = 0#16 then 1#16 else w.extractLsb' 0 16

/-- R[a] <- w in IDLE (45_host_commands.md R304): STEP_BUDGET and POLL_BUDGET are stored, any other address has no
effect. -/
def State.writeReg (s : State) (a : RegAddr) (w : Word) : State :=
  if a = 0x01#6 then { s with stepBudget := stepBudgetOf w }
  else if a = 0x02#6 then { s with pollBudget := w.extractLsb' 0 24 }
  else s

/-- The host samples reg_rdata while the port shows R[a] (20_memory.md R82; log 4). -/
def State.sampleReg (s : State) (a : RegAddr) : State := { s with regRdata := s.readReg a }

end Sys2Proof.Machine
end

