-- ==== Sys2Proof/Machine/Telemetry.lean ====
section
/-! DEFINITION. The fixed-offset hex payload parser (41_telemetry_decoder.md): a captured frame to a reading. It is applied
only to frames that validate has found VALID (R150). -/

namespace Sys2Proof.Machine

/-- FIELD(124), the capacity (41_telemetry_decoder.md R161). -/
def capacityOf (t : List Byte) : Half := field t 124

/-- zext_32(volt) × zext_32(cap), which never wraps (41_telemetry_decoder.md R162). -/
def energyOf (volt cap : Half) : Word := volt.setWidth 32 * cap.setWidth 32

/-- The field table of 41_telemetry_decoder.md R153, rules R154..R162. -/
def readingOf (t : List Byte) : Reading where
  soc := field t 2
  volt := field t 6
  cur := field t 106
  soh := field t 114
  energy := energyOf (field t 6) (capacityOf t)
  tenv := field t 76
  tcell := field t 80
  tmos := field t 84
  taux := Vector.ofFn fun j => field t (90 + 4 * j.val)
  cell := Vector.ofFn fun i => field t (12 + 4 * i.val)

/-- The success commit of the result registers, cap_raw and res_valid, and pos' ← 0 (44_acquisition_fsm.md R262). -/
def State.commit (s : State) (t : List Byte) : State :=
  { s with res := readingOf t, capRaw := capacityOf t, resValid := true, pos := 0 }

end Sys2Proof.Machine
end

