-- ==== Sys2Proof/Machine/Validation.lean ====
section
/-! DEFINITION. The checksum validator (42_frame_validation.md): a captured frame, or the null response, to a reason, a
status class and the diagnostics. -/

namespace Sys2Proof.Machine

/-- What validate returns (42_frame_validation.md R180). -/
structure Verdict where
  reason : Reason
  cls : StatusClass
  diag : Diag
  deriving DecidableEq, Repr

/-- The class of a two-byte code: 0 for OK_CODE, else the entry of STATUS_CLASS, else UNKNOWN (42_frame_validation.md
R186, R188). -/
def statusClassOf (p : Params) (cid2 : Half) : StatusClass :=
  if cid2 = p.okCode then .ok else ((p.statusClass.find? fun e => e.1 = cid2).map Prod.snd).getD .unknown

/-- CID2, T[7:9], first character high (10_state.md R52). -/
def cid2Of (t : List Byte) : Half := byteAt t 7 ++ byteAt t 8

/-- All of T[o : o+4] are hex digits. -/
def hexDigitsAt (t : List Byte) (o : Nat) : Bool := (slice t o (o + 4)).all isHex

/-- LENID, hex4(T[9:13]) (42_frame_validation.md R190). -/
def lenidOf (t : List Byte) : Half := hexAt t 9

/-- The received checksum, hex4(T[n-5 : n-1]) (42_frame_validation.md R192). -/
def fchkOf (t : List Byte) : Half := hexAt t (t.length - 5)

/-- frame_checksum of the span T[1 : n-5] (42_frame_validation.md R191). -/
def calcOf (t : List Byte) : Half := frameChecksum (slice t 1 (t.length - 5))

/-- The decoded windows, as half-open ranges of body offsets (42_frame_validation.md R196). -/
def windows : List (Nat × Nat) := [(2, 10), (12, 88), (90, 110), (114, 118), (124, 128)]

/-- Every character of the decoded windows is a hex digit (42_frame_validation.md R195). -/
def windowsHex (t : List Byte) : Bool := windows.all fun w => (slice t (13 + w.1) (13 + w.2)).all isHex

/-- A byte of T before the delimiter is 0x80 or above (42_frame_validation.md R183). -/
def hasNonAscii (t : List Byte) : Bool := (t.take (t.length - 1)).any fun b => 0x80#8 ≤ b

/-- Checks (c) and (d) and the capacity and format checks, for a frame whose LENID passed (42_frame_validation.md
R191..R195); d holds the diagnostics written so far. -/
def validateTail (t : List Byte) (d : Diag) : Verdict :=
  let d := { d with fchkCalc := calcOf t, fchkCalcP := true }
  if !hexDigitsAt t (t.length - 5) then ⟨.fchkFormat, .ok, d⟩
  else
    let d := { d with fchkRx := fchkOf t, fchkRxP := true }
    if fchkOf t ≠ calcOf t then ⟨.fchkMismatch, .ok, d⟩
    else if t.length - 18 < Config.bodyMin then ⟨.bodyShort, .ok, d⟩
    else if t.length - 18 < Config.capEnd then ⟨.bodyNoCapacity, .ok, d⟩
    else if !windowsHex t then ⟨.bodyFormat, .ok, d⟩
    else ⟨.valid, .ok, d⟩

/-- validate on a captured frame: the first failing check gives the reason (42_frame_validation.md R180), and a diagnostic
is written once the check that reads it has been reached (R197). -/
def validateFrame (p : Params) (t : List Byte) : Verdict :=
  let d := { Diag.zero with rxlen := BitVec.ofNat 16 t.length }
  if hasNonAscii t then ⟨.nonAscii, .none, d⟩
  else if t.length < Config.minFrameLen then ⟨.tooShort, .none, d⟩
  else
    let d := { d with cid2 := cid2Of t }
    if cid2Of t ≠ p.okCode then ⟨.statusNotOk, statusClassOf p (cid2Of t), d⟩
    else if !hexDigitsAt t 9 then ⟨.lenidFormat, .ok, d⟩
    else
      let d := { d with lenid := lenidOf t, lenidP := true }
      if !lenOk (lenidOf t) then ⟨.lenidChecksum, .ok, d⟩ else validateTail t d

/-- validate(T) (42_frame_validation.md R180); none is the null response ⊥ (R182). -/
def validate (p : Params) : Option (List Byte) → Verdict
  | none => ⟨.noResponse, .none, Diag.zero⟩
  | some t => validateFrame p t

/-- The diagnostic writes of a VALIDATING period (44_acquisition_fsm.md R261; 42_frame_validation.md R197). -/
def State.record (s : State) (v : Verdict) : State :=
  { s with lastReason := v.reason, lastClass := v.cls, diag := v.diag }

end Sys2Proof.Machine
end

