-- ==== Sys2Proof/Machine/Acquisition.lean ====
section
/-! DEFINITION. POLL and the periods of a running poll (44_acquisition_fsm.md R252..R268). -/

namespace Sys2Proof.Machine

/-- The acceptance of POLL (44_acquisition_fsm.md R252..R255), for a period in which link_ok is link. -/
def State.startPoll (s : State) (link : Bool) : State :=
  let s := { s with resValid := false, attempts := 0#3, pollT := 0#24 }
  if link = false then s.endPoll .failConnection
  else if Config.cycleLen ≤ s.pos.val then { s with pos := 0 }.endPoll .failCycleExhausted
  else { s with attempts := 1#3 }.enterSending

/-- POLL (44_acquisition_fsm.md R252): this is its acceptance; the poll runs on in the periods after it. -/
def execPoll (s : State) : Result := .next (s.whenAccepted fun s => s.startPoll s.input.linkOk)

/-- The deadlines, behind every other event of the period: the outer one first (44_acquisition_fsm.md R268, R257, R267);
the timers count the period's tick whatever comes of it. -/
def State.deadlines (s : State) (i : Inputs) : State :=
  if s.outerDue i then (s.countTicks i).endPoll .failPollTimeout
  else if s.stepDue i then (s.countTicks i).endPoll .failStepTimeout
  else s.countTicks i

/-- The event of a SENDING period (44_acquisition_fsm.md R256), with sent = (send_idx == PLEN(pos)) as the period began;
capture and transfer are in s already. -/
def State.sendingEvent (s : State) (i : Inputs) (sent : Bool) : State :=
  if i.txErr then (s.countTicks i).endPoll .failTransportIo
  else if sent && i.txDrained then (s.countTicks i).enterAwaiting
  else s.deadlines i

/-- A period that begins in SENDING (44_acquisition_fsm.md R256). -/
def sendingPeriod (i : Inputs) (s : State) : Result :=
  match s.request with
  | none => .fault .romAddress
  | some req =>
    andThen (s.capture i) fun s' =>
      .next ((s'.transfer i).sendingEvent i (decide (s.sendIdx = req.length)))

/-- The event of an AWAITING period, after the capture step (44_acquisition_fsm.md R258..R260). -/
def State.awaitingEvent (s : State) (i : Inputs) : State :=
  if s.rxState = .complete then { s.countTicks i with fsm := .validating }
  else if s.rxState = .null ∨ i.rxErr = true then { s.countTicks i with rxState := .null, fsm := .validating }
  else s.deadlines i

/-- A period that begins in AWAITING (44_acquisition_fsm.md R258). -/
def awaitingPeriod (i : Inputs) (s : State) : Result :=
  andThen (s.capture i) fun s' => .next (s'.awaitingEvent i)

/-- A FrameInvalid: the cycle advances (44_acquisition_fsm.md R263). -/
def State.advanceCycle (s : State) : Result :=
  if h : s.pos.val + 1 < 7 then .next { s with pos := ⟨s.pos.val + 1, h⟩, stepT := 0#16, fsm := .advance }
  else .fault .positionRange

/-- The one period of VALIDATING (44_acquisition_fsm.md R261..R263): no deadline is tested, and only poll_t counts. -/
def validatingPeriod (i : Inputs) (s : State) : Result :=
  if s.rxState = .complete ∧ s.params.rxBufMax < s.rxN then .fault .rxbAddress
  else
    let v := validate s.params s.frame
    let s' := (s.countPoll i).record v
    if v.reason = .valid then .next ((s'.commit s.captured).endPoll .ok) else s'.advanceCycle

/-- The end of the retry sleep (44_acquisition_fsm.md R264, R265). -/
def State.endSleep (s : State) : State :=
  if Config.cycleLen ≤ s.pos.val then { s with pos := 0 }.endPoll .failCycleExhausted
  else { s with attempts := s.attempts + 1#3 }.enterSending

/-- A period that begins in ADVANCE, the retry sleep (44_acquisition_fsm.md R264, R265, R267). -/
def advancePeriod (i : Inputs) (s : State) : Result :=
  .next
    (if s.outerDue i then (s.countTicks i).endPoll .failPollTimeout
     else if s.stepDue i then (s.countTicks i).endSleep
     else s.countTicks i)

/-- What a running poll does in a period that began in the state pre; an IDLE period does nothing of it
(44_acquisition_fsm.md R251). -/
def acquire (pre : Fsm) (i : Inputs) (s : State) : Result :=
  match pre with
  | .idle => .next s
  | .sending => sendingPeriod i s
  | .awaiting => awaitingPeriod i s
  | .validating => validatingPeriod i s
  | .advance => advancePeriod i s

end Sys2Proof.Machine
end

