-- ==== Sys2Proof/Machine/Codec.lean ====
section
/-! DEFINITION. The six codec commands (40_checksum_codec.md R130..R135). Each is accepted only in IDLE and responds at the
edge of its acceptance. -/

namespace Sys2Proof.Machine

/-- 0x0001 for a check that holds, 0x0000 for one that fails (40_checksum_codec.md R131, R135). -/
def flagData (b : Bool) : Half := if b then 0x0001#16 else 0x0000#16

/-- LCHK.GEN (40_checksum_codec.md R130). -/
def execLchkGen (v : BitVec 12) (s : State) : Result :=
  .next (s.whenAccepted fun s => s.respond .ok (lengthChecksum v))

/-- LCHK.CHK (40_checksum_codec.md R131). -/
def execLchkChk (f : Half) (s : State) : Result :=
  .next (s.whenAccepted fun s => s.respond .ok (flagData (lenOk f)))

/-- FCHK.CLR (40_checksum_codec.md R132). -/
def execFchkClr (s : State) : Result :=
  .next (s.whenAccepted fun s => { s with facc := 0#16 }.respond .ok 0#16)

/-- FCHK.ADD (40_checksum_codec.md R133). -/
def execFchkAdd (b : Byte) (s : State) : Result :=
  .next (s.whenAccepted fun s => { s with facc := s.facc + b.setWidth 16 }.respond .ok 0#16)

/-- FCHK.GET (40_checksum_codec.md R134). -/
def execFchkGet (s : State) : Result :=
  .next (s.whenAccepted fun s => s.respond .ok (complementSum s.facc))

/-- FCHK.CHK (40_checksum_codec.md R135). -/
def execFchkChk (c : Half) (s : State) : Result :=
  .next (s.whenAccepted fun s => s.respond .ok (flagData (-s.facc = c)))

end Sys2Proof.Machine
end

