-- ==== Sys2Proof/Machine/HostPort.lean ====
section
/-! DEFINITION. NOP, ILLEGAL and the two register-port accesses (45_host_commands.md R301..R304). -/

namespace Sys2Proof.Machine

/-- NOP (45_host_commands.md R301). -/
def execNop (s : State) : Result := .next (s.whenAccepted fun s => s.respond .ok 0#16)

/-- ILLEGAL (45_host_commands.md R302): the response and nothing else, whatever the word. -/
def execIllegal (_word : CmdWord) (s : State) : Result :=
  .next (s.whenAccepted fun s => s.respond .illegal 0#16)

/-- REG.RD (45_host_commands.md R303): in every state, with no side effect on the block. -/
def execRegRd (a : RegAddr) (s : State) : Result := .next (s.sampleReg a)

/-- REG.WR (45_host_commands.md R304): reg_rdata shows the old value (30_encoding.md R105); outside IDLE the write is
dropped. -/
def execRegWr (a : RegAddr) (w : Word) (s : State) : Result :=
  .next ((s.sampleReg a).whenAccepted fun s => s.writeReg a w)

end Sys2Proof.Machine
end

