-- ==== Sys2Proof/Machine/Dispatch.lean ====
section
/-! DEFINITION. One arm per constructor of Instr. -/

namespace Sys2Proof.Machine

def exec (i : Instr) (s : State) : Host.Outcome State Fault Refusal :=
  match i with
  | .nop => Sys2Proof.Machine.execNop s
  | .poll => Sys2Proof.Machine.execPoll s
  | .lchkGen v => Sys2Proof.Machine.execLchkGen v s
  | .lchkChk f => Sys2Proof.Machine.execLchkChk f s
  | .fchkClr => Sys2Proof.Machine.execFchkClr s
  | .fchkAdd b => Sys2Proof.Machine.execFchkAdd b s
  | .fchkGet => Sys2Proof.Machine.execFchkGet s
  | .fchkChk c => Sys2Proof.Machine.execFchkChk c s
  | .illegal word => Sys2Proof.Machine.execIllegal word s
  | .regRd a => Sys2Proof.Machine.execRegRd a s
  | .regWr a w => Sys2Proof.Machine.execRegWr a w s

end Sys2Proof.Machine
end

