-- ==== Sys2Proof/Machine/Clock.lean ====
section
/-! DEFINITION. One clock period (44_acquisition_fsm.md R251; 70_reset_and_hazards.md R350), and how a program's
instruction is presented to the block's ports. -/

namespace Sys2Proof.Machine

/-- The register-port access of a period; one is present in every period (30_encoding.md R105). -/
def portAccess (i : Inputs) : PortWord := .reg i.regWe i.regAddr i.regWdata

/-- The register-port access of a period with rst = 0 takes its effect (45_host_commands.md R303, R304). -/
def registerPhase (i : Inputs) (s : State) : Result := exec (decode (portAccess i)) s

/-- The command of a period, if the host presents one; whether it is accepted is its meaning's to say (30_encoding.md
R101). -/
def commandPhase (i : Inputs) (s : State) : Result :=
  if i.cmdValid then exec (decode (.cmd i.cmdWord)) s else .next s

/-- A period with rst = 1: reg_rdata still follows s_k, and the next state is the reset state whatever s_k and the other
inputs are (70_reset_and_hazards.md R350). -/
def resetPeriod (i : Inputs) (s : State) : Result := .next ((s.sampleReg i.regAddr).resetBlock).endPeriod

/-- A period with rst = 0, in the order of 44_acquisition_fsm.md R251: no response, the register access, the command, the
running poll (log 8). -/
def runPeriod (i : Inputs) (s : State) : Result :=
  andThen (registerPhase i s.beginPeriod) fun s1 =>
    andThen (commandPhase i s1) fun s2 =>
      andThen (acquire s.fsm i s2) fun s3 => .next s3.endPeriod

/-- The clock step s_{k+1} = step(s_k, i_k) (00_scope.md R14). -/
def clockPeriod (s : State) : Result :=
  if s.input.rst then resetPeriod s.input s else runPeriod s.input s

/-- A period in which the environment does nothing but keep the connection (log 16). -/
def quietInputs : Inputs where
  rst := false
  tick := false
  cmdValid := false
  cmdWord := 0#24
  regAddr := 0#6
  regWe := false
  regWdata := 0#32
  txReady := false
  txDrained := false
  txErr := false
  rxValid := false
  rxData := 0#8
  rxErr := false
  linkOk := true

/-- A quiet period in which the host presents p. -/
def presenting (p : PortWord) : Inputs :=
  match p with
  | .cmd w => { quietInputs with cmdValid := true, cmdWord := w }
  | .reg we a w => { quietInputs with regWe := we, regAddr := a, regWdata := w }

/-- The state in which the host presents p in the period that now begins (log 16). -/
def State.present (s : State) (p : PortWord) : State :=
  { s with script := presenting p :: s.script }

end Sys2Proof.Machine
end

