-- ==== Sys2Proof/Machine/Step.lean ====
section
/-! DEFINITION. The step of the machine, one clock period, and the placing of an instruction where the next step takes it
from: the input ports of the next period. -/

namespace Sys2Proof.Machine

/-- One clock period (00_scope.md R14). -/
def step (s : State) : Host.Outcome State Fault Refusal := clockPeriod s

/-- s with the instruction whose table bits are w presented in the period that begins now (log 16). -/
def State.withFetchWord (s : State) (nbits w : Nat) : State :=
  match tablePort nbits w with
  | some p => s.present p
  | none => s

end Sys2Proof.Machine
end

