-- ==== Sys2Proof/Safety.lean ====
section
/-! DEFINITION. What a good state is, in the terms the statements use: the invariant of the machine, the bound on the poll
timer, and when two states cannot be told apart. -/

namespace Sys2Proof.Safety

open Sys2Proof.Machine

/-- The captured bytes are a frame so far: no delimiter before the last one, which a complete frame has (10_state.md R39;
42_frame_validation.md R202). -/
def captureOk (s : State) : Prop :=
  match s.rxState with
  | .capturing => ∀ j < s.rxN, Memory.read s.rxb j ≠ Config.delim
  | .complete => 0 < s.rxN ∧ Memory.read s.rxb (s.rxN - 1) = Config.delim
      ∧ ∀ j < s.rxN - 1, Memory.read s.rxb j ≠ Config.delim
  | .null => True

/-- Where pos and attempts may be in each state (10_state.md R36; 44_acquisition_fsm.md R269 (a), (b)); a poll has sent no
more requests than the cycle has entries up to its position. -/
def positionOk (s : State) : Prop :=
  match s.fsm with
  | .idle => s.attempts.toNat ≤ 6
  | .sending => s.pos.val ≤ 5 ∧ 1 ≤ s.attempts.toNat ∧ s.attempts.toNat ≤ s.pos.val + 1
  | .awaiting => s.pos.val ≤ 5 ∧ 1 ≤ s.attempts.toNat ∧ s.attempts.toNat ≤ s.pos.val + 1
  | .validating => s.pos.val ≤ 5 ∧ 1 ≤ s.attempts.toNat ∧ s.attempts.toNat ≤ s.pos.val + 1
  | .advance => 1 ≤ s.attempts.toNat ∧ s.attempts.toNat ≤ s.pos.val

/-- The step timer has not used up the step budget in a state that waits (60_exceptions.md R330). -/
def timerOk (s : State) : Prop :=
  match s.fsm with
  | .idle => True
  | .sending => s.stepT.toNat < s.stepBudget.toNat
  | .awaiting => s.stepT.toNat < s.stepBudget.toNat
  | .validating => s.stepT.toNat ≤ s.stepBudget.toNat
  | .advance => s.stepT.toNat < s.stepBudget.toNat

/-- The invariant of the machine: what holds after reset and after every step. -/
structure Inv (s : State) : Prop where
  /-- 00_scope.md R8 -/
  params : s.params.legal = true
  /-- RXB is in canonical form. -/
  bufferWf : Memory.wf s.rxb = true
  /-- RXB has RX_BUF_MAX bytes (10_state.md R39). -/
  bufferFits : ∀ c ∈ s.rxb, c.1 < s.params.rxBufMax
  /-- The range of rx_n (10_state.md R39). -/
  countFits : s.rxN ≤ s.params.rxBufMax
  /-- 42_frame_validation.md R202 -/
  capture : captureOk s
  /-- The validator has a frame or the null response (43_transport_framing.md R227..R229). -/
  response : s.fsm = .validating → s.rxState ≠ .capturing
  /-- The range of STEP_BUDGET (10_state.md R42, R50). -/
  budget : s.stepBudget ≠ 0#16
  /-- 60_exceptions.md R330 -/
  timer : timerOk s
  /-- 10_state.md R36, R40 -/
  position : positionOk s
  /-- The range of send_idx (10_state.md R38). -/
  sendRange : s.fsm = .sending → ∃ req, s.request = some req ∧ s.sendIdx ≤ req.length
  /-- res_valid is 1 exactly when the most recent poll ended OK (44_acquisition_fsm.md R269 (e)). -/
  readingValid : s.resValid = true ↔ s.fsm = .idle ∧ s.lastOutcome = .ok
  /-- The energy register is the product of the two raw values (41_telemetry_decoder.md R162). -/
  energy : s.res.energy = energyOf s.res.volt s.capRaw
  /-- A response is made only at the edge into IDLE or in IDLE (45_host_commands.md R300). -/
  responseIdle : s.respValid = true → s.fsm = .idle
  /-- 15 is never a resp_code (60_exceptions.md R320). -/
  codeKnown : s.respCode ≠ .none
  /-- last_outcome holds only what a poll ends with, or the reset value (10_state.md R44). -/
  outcomeOfPoll : s.lastOutcome ≠ .illegal

/-- The most ticks one attempt can take: SENDING, AWAITING and ADVANCE a step budget each, and the one period of VALIDATING
(44_acquisition_fsm.md R272). -/
def attemptTicks (s : State) : Nat := 3 * s.stepBudget.toNat + 1

/-- How far poll_t can have come in each state of a running poll (44_acquisition_fsm.md R272). -/
def pollTimerOk (s : State) : Prop :=
  let before := (s.attempts.toNat - 1) * attemptTicks s
  match s.fsm with
  | .idle => True
  | .sending => s.pollT.toNat ≤ before + s.stepT.toNat
  | .awaiting => s.pollT.toNat ≤ before + s.stepBudget.toNat + s.stepT.toNat
  | .validating => s.pollT.toNat ≤ before + 2 * s.stepBudget.toNat
  | .advance => s.pollT.toNat ≤ before + 2 * s.stepBudget.toNat + 1 + s.stepT.toNat

/-- Two states that differ in nothing but bytes of RXB at or beyond rx_n, which no rule reads (10_state.md R55). -/
structure SameButUnread (s u : State) : Prop where
  rest : { s with rxb := u.rxb } = u
  read : ∀ j < s.rxN, Memory.read s.rxb j = Memory.read u.rxb j
  wfLeft : Memory.wf s.rxb = true
  wfRight : Memory.wf u.rxb = true

/-- Two parameter choices that differ in nothing but the content of the request frames (00_scope.md R10). -/
def SameButPayloadBytes (p q : Params) : Prop :=
  { p with pStatus := q.pStatus, pA := q.pA, pB := q.pB } = q ∧ p.pStatus.length = q.pStatus.length
    ∧ p.pA.length = q.pA.length ∧ p.pB.length = q.pB.length

/-- A poll ended from s with this code: the block is in IDLE with the response and the outcome of end_poll
(44_acquisition_fsm.md R266), and resp_data is the count of attempts, n. -/
def endedWith (code : RespCode) (n : BitVec 3) (t : State) : Prop :=
  t.fsm = .idle ∧ t.respValid = true ∧ t.respCode = code ∧ t.respData = 0#13 ++ n ∧ t.lastOutcome = code
    ∧ t.attempts = n

/-- No operation ended: resp_valid is 0, and resp_code, resp_data and last_outcome are as they were (45_host_commands.md
R300). -/
def noResponse (s t : State) : Prop :=
  t.respValid = false ∧ t.respCode = s.respCode ∧ t.respData = s.respData ∧ t.lastOutcome = s.lastOutcome

/-- The reading registers and cap_raw are as they were. -/
def sameReading (s t : State) : Prop := t.res = s.res ∧ t.capRaw = s.capRaw

/-- Every byte of RXB reads as it did. -/
def sameBytes (s t : State) : Prop := ∀ j, Memory.read t.rxb j = Memory.read s.rxb j

/-- What no register shows is as it was: send_idx, rx_n, rx_state and every byte of RXB (10_state.md R55; 60_exceptions.md
R324). -/
def sameBuffers (s t : State) : Prop :=
  t.sendIdx = s.sendIdx ∧ t.rxN = s.rxN ∧ t.rxState = s.rxState ∧ sameBytes s t

/-- The diagnostics of the last validation are as they were. -/
def sameDiagnostics (s t : State) : Prop :=
  t.lastReason = s.lastReason ∧ t.lastClass = s.lastClass ∧ t.diag = s.diag

/-- What no period with rst = 0 of a running poll changes: the budgets and facc, which only the host's commands and writes
change, and the parameters. -/
def sameHostRegisters (s t : State) : Prop :=
  t.stepBudget = s.stepBudget ∧ t.pollBudget = s.pollBudget ∧ t.facc = s.facc ∧ t.params = s.params

/-- The step timer of a waiting period reaches the step budget (60_exceptions.md R332). -/
abbrev stepDeadline (s : State) : Prop := s.stepBudget.toNat ≤ s.stepT.toNat + s.input.tick.toNat

/-- The outer deadline of a period (60_exceptions.md R331, R333). -/
abbrev outerDeadline (s : State) : Prop :=
  s.pollBudget ≠ 0#24 ∧ s.pollBudget.toNat ≤ min (s.pollT.toNat + s.input.tick.toNat) (2 ^ 24 - 1)

/-- A byte is captured or overflows in this period (43_transport_framing.md R226, R227). -/
abbrev byteArrives (s : State) : Prop := s.rxState = .capturing ∧ s.input.rxValid = true

/-- The post-capture rx_state is COMPLETE: a whole frame stands in RXB (43_transport_framing.md R227). -/
abbrev frameComplete (s : State) : Prop :=
  s.rxState = .complete ∨ (byteArrives s ∧ s.rxN ≠ s.params.rxBufMax ∧ s.input.rxData = Config.delim)

/-- The post-capture rx_state is NULL: the buffer overflowed, now or before (43_transport_framing.md R228). -/
abbrev responseNull (s : State) : Prop :=
  s.rxState = .null ∨ (byteArrives s ∧ s.rxN = s.params.rxBufMax)

/-- A list of instructions, each executed in the state the one before it left. -/
def execAll : List Instr → State → Result
  | [], s => .next s
  | i :: is, s => andThen (exec i s) (execAll is)

/-- The sum of byte values, as a number. -/
def byteTotal (bytes : List Byte) : Nat := (bytes.map BitVec.toNat).sum

/-- The number whose addition makes a sum a multiple of 65536 (40_checksum_codec.md R120). -/
def negated16 (n : Nat) : Nat := (65536 - n % 65536) % 65536

/-- The top nibble that belongs to a 12-bit length value: minus the sum of its nibbles, mod 16 (40_checksum_codec.md
R122). -/
def topNibble (v : Nat) : Nat := (16 - (v % 16 + v / 16 % 16 + v / 256 % 16) % 16) % 16

/-- A hex digit in either letter case (00_scope.md R16), by its byte value. -/
def hexChar (b : Byte) : Bool :=
  decide (0x30 ≤ b.toNat ∧ b.toNat ≤ 0x39 ∨ 0x41 ≤ b.toNat ∧ b.toNat ≤ 0x46 ∨ 0x61 ≤ b.toNat ∧ b.toNat ≤ 0x66)

/-- The value of a hex digit (00_scope.md R16). -/
def digitValue (b : Byte) : Nat :=
  if b.toNat ≤ 0x39 then b.toNat - 0x30 else if b.toNat ≤ 0x46 then b.toNat - 0x37 else b.toNat - 0x57

/-- The byte of a frame at an offset. -/
def charAt (t : List Byte) (o : Nat) : Byte := t.getD o 0x00#8

/-- The number four hex digits of a frame write, the first most significant (20_memory.md R86). -/
def numberAt (t : List Byte) (o : Nat) : Nat :=
  digitValue (charAt t o) * 4096 + digitValue (charAt t (o + 1)) * 256 + digitValue (charAt t (o + 2)) * 16
    + digitValue (charAt t (o + 3))

/-- The characters of a frame in a range of offsets are all hex digits. -/
def allHexChars (t : List Byte) (lo hi : Nat) : Bool := (List.range' lo (hi - lo)).all fun o => hexChar (charAt t o)

/-- The ordered checks of 42_frame_validation.md R180 on a captured frame, each with the reason it gives and whether it
fails. -/
def orderedChecks (p : Params) (t : List Byte) : List (Reason × Bool) :=
  let n := t.length
  let f := numberAt t 9
  [(.nonAscii, (List.range (n - 1)).any fun o => decide (0x80 ≤ (charAt t o).toNat)),
   (.tooShort, decide (n < 18)),
   (.statusNotOk, decide (p.okCode.toNat ≠ (charAt t 7).toNat * 256 + (charAt t 8).toNat)),
   (.lenidFormat, !allHexChars t 9 13),
   (.lenidChecksum, decide (f / 4096 ≠ topNibble (f % 4096))),
   (.fchkFormat, !allHexChars t (n - 5) (n - 1)),
   (.fchkMismatch, decide (numberAt t (n - 5) ≠ negated16 (byteTotal ((t.drop 1).take (n - 6))))),
   (.bodyShort, decide (n < 18 + 118)),
   (.bodyNoCapacity, decide (n < 18 + 128)),
   (.bodyFormat, !(allHexChars t 15 23 && allHexChars t 25 101 && allHexChars t 103 123 && allHexChars t 127 131
     && allHexChars t 137 141))]

/-- A number below 16 as an upper-case hex digit. -/
def digitChar (n : Nat) : Byte := if n < 10 then BitVec.ofNat 8 (0x30 + n) else BitVec.ofNat 8 (0x37 + n)

/-- A 16-bit value as four upper-case hex digits. -/
def hexText (x : Half) : List Byte :=
  [digitChar (x.toNat / 4096), digitChar (x.toNat / 256 % 16), digitChar (x.toNat / 16 % 16), digitChar (x.toNat % 16)]

/-- The checksum span of a frame built as 40_checksum_codec.md R136 says: the header without its marker, the ok code, the
LENID word of the body's length, the body. -/
def builtSpan (p : Params) (header body : List Byte) : List Byte :=
  header ++ [p.okCode.extractLsb' 8 8, p.okCode.extractLsb' 0 8]
    ++ hexText (lengthChecksum (BitVec.ofNat 12 body.length)) ++ body

/-- The frame built around that span: marker, span, its checksum, the delimiter. -/
def builtFrame (p : Params) (marker : Byte) (header body : List Byte) : List Byte :=
  marker :: builtSpan p header body ++ hexText (frameChecksum (builtSpan p header body)) ++ [Config.delim]

/-- The body offsets of the decoded windows (42_frame_validation.md R196). -/
def inWindow (o : Nat) : Prop :=
  2 ≤ o ∧ o < 10 ∨ 12 ≤ o ∧ o < 88 ∨ 90 ≤ o ∧ o < 110 ∨ 114 ≤ o ∧ o < 118 ∨ 124 ≤ o ∧ o < 128

/-- A period that delivers one byte and nothing else: no tick, no error, no reset (43_transport_framing.md R227). -/
def deliversOnly (b : Byte) (i : Inputs) : Prop :=
  i.rst = false ∧ i.tick = false ∧ i.rxErr = false ∧ i.rxValid = true ∧ i.rxData = b

/-- A period in which the transport takes the byte offered, and nothing ends the attempt: no tick, no error, no reset. -/
def takesOnly (i : Inputs) : Prop :=
  i.rst = false ∧ i.tick = false ∧ i.txErr = false ∧ i.txReady = true

end Sys2Proof.Safety
end

