-- ==== Sys2Proof/Certificates/Slice0/Obligations.lean ====
section
/-! DEFINITION. The statements for the provers, in the order: commands and register accesses, the step, encoding, the
checksum codec, frame validation, the telemetry decoder, the periods of a poll, the whole machine. -/

open Sys2Proof Sys2Proof.Machine Sys2Proof.Safety

/-! Commands and register accesses: each statement of a command gives its whole next state, so its frame is part of it. -/

/-- R301: NOP, whatever ARG holds, responds OK with data 0 and changes nothing else. -/
def Obligations.NopRespondsOk : Prop :=
  (∀ arg : Half, decodeCmd (0x0#4 ++ 0x0#4 ++ arg) = .nop)
  ∧ ∀ s : State, s.fsm = .idle →
    exec .nop s = .next { s with respValid := true, respCode := .ok, respData := 0#16 }

/-- R302: any word with OP in 0x8..0xF or RSV not 0 is ILLEGAL, and ILLEGAL responds ILLEGAL with data 0 and changes
nothing else; the block stays in IDLE. -/
def Obligations.IllegalWordRespondsIllegal : Prop :=
  (∀ w : CmdWord, (8 ≤ w.toNat / 2 ^ 20 ∨ w.toNat / 2 ^ 16 % 16 ≠ 0) → decodeCmd w = .illegal w)
  ∧ ∀ (w : CmdWord) (s : State), s.fsm = .idle →
    exec (.illegal w) s = .next { s with respValid := true, respCode := .illegal, respData := 0#16 }

/-- R130, R122: LCHK.GEN ignores ARG[15:12] and responds with the LENID word of ARG[11:0], whose top nibble is minus the
nibble sum mod 16 and whose low 12 bits are the value. -/
def Obligations.LchkGenRespondsLenidWord : Prop :=
  (∀ (ignored : BitVec 4) (v : BitVec 12), decodeCmd (0x2#4 ++ 0x0#4 ++ (ignored ++ v)) = .lchkGen v)
  ∧ ∀ (v : BitVec 12) (s : State), s.fsm = .idle →
    exec (.lchkGen v) s = .next { s with
      respValid := true
      respCode := .ok
      respData := BitVec.ofNat 16 (topNibble v.toNat * 4096 + v.toNat) }

/-- R131: LCHK.CHK responds 1 where the top nibble of the word is the one its low 12 bits call for, else 0. -/
def Obligations.LchkChkTestsLenidWord : Prop :=
  (∀ f : Half, decodeCmd (0x3#4 ++ 0x0#4 ++ f) = .lchkChk f)
  ∧ ∀ (f : Half) (s : State), s.fsm = .idle →
    exec (.lchkChk f) s = .next { s with
      respValid := true
      respCode := .ok
      respData := if f.toNat / 4096 = topNibble (f.toNat % 4096) then 1#16 else 0#16 }

/-- R132: FCHK.CLR clears facc and responds OK with data 0. -/
def Obligations.FchkClrClearsAccumulator : Prop :=
  (∀ arg : Half, decodeCmd (0x4#4 ++ 0x0#4 ++ arg) = .fchkClr)
  ∧ ∀ s : State, s.fsm = .idle →
    exec .fchkClr s = .next { s with facc := 0#16, respValid := true, respCode := .ok, respData := 0#16 }

/-- R133: FCHK.ADD ignores ARG[15:8], adds the byte modulo 2^16 and responds OK with data 0. -/
def Obligations.FchkAddAddsCharacter : Prop :=
  (∀ ignored b : Byte, decodeCmd (0x5#4 ++ 0x0#4 ++ (ignored ++ b)) = .fchkAdd b)
  ∧ ∀ (b : Byte) (s : State), s.fsm = .idle →
    exec (.fchkAdd b) s = .next { s with
      facc := BitVec.ofNat 16 ((s.facc.toNat + b.toNat) % 65536)
      respValid := true
      respCode := .ok
      respData := 0#16 }

/-- R134: FCHK.GET responds the complement of facc plus 1 and leaves facc alone; that is the frame checksum of the bytes
added since FCHK.CLR, or since a reset. -/
def Obligations.FchkGetRespondsFrameChecksum : Prop :=
  (∀ arg : Half, decodeCmd (0x6#4 ++ 0x0#4 ++ arg) = .fchkGet)
  ∧ (∀ s : State, s.fsm = .idle →
    exec .fchkGet s = .next { s with
      respValid := true
      respCode := .ok
      respData := BitVec.ofNat 16 (negated16 s.facc.toNat) })
  ∧ (∀ (bytes : List Byte) (s : State), s.fsm = .idle →
    ∃ t, execAll (.fchkClr :: (bytes.map .fchkAdd ++ [.fchkGet])) s = .next t
      ∧ t.respValid = true ∧ t.respCode = .ok ∧ t.respData = frameChecksum bytes)
  ∧ ∀ (bytes : List Byte) (p : Params),
    ∃ t, execAll (bytes.map .fchkAdd ++ [.fchkGet]) (State.resetWith p) = .next t
      ∧ t.respValid = true ∧ t.respCode = .ok ∧ t.respData = frameChecksum bytes

/-- R135: FCHK.CHK responds 1 where its operand is the checksum of facc, else 0, and leaves facc alone. -/
def Obligations.FchkChkComparesChecksum : Prop :=
  (∀ c : Half, decodeCmd (0x7#4 ++ 0x0#4 ++ c) = .fchkChk c)
  ∧ ∀ (c : Half) (s : State), s.fsm = .idle →
    exec (.fchkChk c) s = .next { s with
      respValid := true
      respCode := .ok
      respData := if negated16 s.facc.toNat = c.toNat then 1#16 else 0#16 }

/-- R253: a POLL accepted with link_ok = 0 ends at once with FAIL_CONNECTION, whatever pos is, and pos is unchanged. -/
def Obligations.PollWithoutConnectionFails : Prop :=
  ∀ s : State, s.fsm = .idle → s.input.linkOk = false →
    exec .poll s = .next { s with
      resValid := false
      attempts := 0#3
      pollT := 0#24
      respValid := true
      respCode := .failConnection
      respData := 0#16
      lastOutcome := .failConnection
      fsm := .idle }

/-- R254: a POLL accepted with link_ok = 1 and pos = 6 resets pos and ends at once with FAIL_CYCLE_EXHAUSTED. -/
def Obligations.PollPastLastPositionReportsExhausted : Prop :=
  ∀ s : State, s.fsm = .idle → s.input.linkOk = true → 6 ≤ s.pos.val →
    exec .poll s = .next { s with
      pos := 0
      resValid := false
      attempts := 0#3
      pollT := 0#24
      respValid := true
      respCode := .failCycleExhausted
      respData := 0#16
      lastOutcome := .failCycleExhausted
      fsm := .idle }

/-- R252, R255: a POLL word, whatever ARG holds, is POLL; accepted with link_ok = 1 and pos at most 5 it makes attempts 1
and enters SENDING with an empty response buffer, and the request is PAYLOAD[pos]. -/
def Obligations.PollEntersSending : Prop :=
  (∀ arg : Half, decodeCmd (0x1#4 ++ 0x0#4 ++ arg) = .poll)
  ∧ ∀ s : State, s.fsm = .idle → s.input.linkOk = true → s.pos.val ≤ 5 →
    ∃ t, exec .poll s = .next t
      ∧ t = { s with
          resValid := false
          attempts := 1#3
          pollT := 0#24
          fsm := .sending
          sendIdx := 0
          stepT := 0#16
          rxN := 0
          rxState := .capturing }
      ∧ t.request = [s.params.pStatus, s.params.pStatus, s.params.pStatus, s.params.pA, s.params.pB,
          s.params.pStatus][s.pos.val]?
      ∧ t.request ≠ none

/-- R84, R303: a register read changes nothing of the block, in any state and at any address, and shows R[a]. That
reg_rdata is kept in the field regRdata is the model's choice (log 4). -/
def Obligations.RegisterReadHasNoSideEffect : Prop :=
  (∀ (a : RegAddr) (d : Word), decode (.reg false a d) = .regRd a)
  ∧ ∀ (a : RegAddr) (s : State),
    exec (.regRd a) s = .next { s with regRdata := s.readReg a } ∧ { s with regRdata := s.readReg a }.toBlock = s.toBlock

/-- R48, R49, R53: what every address of the register space reads, bit by bit as numbers. -/
def Obligations.RegisterMapReads : Prop :=
  ∀ s : State,
    (s.readReg 0x00#6).toNat = s.fsm.code.toNat + 8 * (if s.fsm = .idle then 0 else 1) + 16 * s.pos.val
        + 128 * s.resValid.toNat + 256 * s.lastOutcome.code.toNat + 4096 * s.lastReason.code.toNat
        + 65536 * (classCode s.lastClass).toNat
    ∧ (s.readReg 0x01#6).toNat = s.stepBudget.toNat
    ∧ (s.readReg 0x02#6).toNat = s.pollBudget.toNat
    ∧ (s.readReg 0x03#6).toNat = s.facc.toNat
    ∧ (s.readReg 0x04#6).toNat = s.stepT.toNat
    ∧ (s.readReg 0x05#6).toNat = s.pollT.toNat
    ∧ (s.readReg 0x06#6).toNat = s.attempts.toNat
    ∧ (s.readReg 0x07#6).toNat = s.diag.rxlen.toNat
    ∧ (s.readReg 0x08#6).toNat = s.diag.cid2.toNat
    ∧ (s.readReg 0x09#6).toNat = s.diag.lenid.toNat + 65536 * s.diag.lenidP.toNat
    ∧ (s.readReg 0x0A#6).toNat = s.diag.fchkRx.toNat + 65536 * s.diag.fchkRxP.toNat
    ∧ (s.readReg 0x0B#6).toNat = s.diag.fchkCalc.toNat + 65536 * s.diag.fchkCalcP.toNat
    ∧ (s.readReg 0x0C#6).toNat = s.capRaw.toNat
    ∧ (s.readReg 0x10#6).toNat = s.res.soc.toNat
    ∧ (s.readReg 0x11#6).toNat = s.res.volt.toNat
    ∧ (s.readReg 0x12#6).toInt = s.res.cur.toInt
    ∧ (s.readReg 0x13#6).toNat = s.res.soh.toNat
    ∧ (s.readReg 0x14#6).toNat = s.res.energy.toNat
    ∧ (s.readReg 0x15#6).toNat = s.res.tenv.toNat
    ∧ (s.readReg 0x16#6).toNat = s.res.tcell.toNat
    ∧ (s.readReg 0x17#6).toNat = s.res.tmos.toNat
    ∧ (∀ j : Fin 4, (s.readReg (BitVec.ofNat 6 (0x18 + j.val))).toNat = (s.res.taux[j.val]).toNat)
    ∧ (∀ i : Fin 16, (s.readReg (BitVec.ofNat 6 (0x1C + i.val))).toNat = (s.res.cell[i.val]).toNat)
    ∧ ∀ a : RegAddr, (0x0D ≤ a.toNat ∧ a.toNat ≤ 0x0F ∨ 0x2C ≤ a.toNat) → s.readReg a = 0#32

/-- R304: in IDLE a write of STEP_BUDGET stores max(w[15:0], 1), a write of POLL_BUDGET stores w[23:0], a write elsewhere
has no effect; outside IDLE every write is dropped. R105, R303: reg_rdata shows the value before the write; that it is kept
in the field regRdata is the model's choice (log 4). -/
def Obligations.RegisterWriteStoresBudgets : Prop :=
  (∀ (a : RegAddr) (w : Word), decode (.reg true a w) = .regWr a w)
  ∧ (∀ (a : RegAddr) (w : Word) (s : State), s.fsm = .idle →
    exec (.regWr a w) s = .next { s with
      regRdata := s.readReg a
      stepBudget := if a.toNat = 1 then BitVec.ofNat 16 (max (w.toNat % 2 ^ 16) 1) else s.stepBudget
      pollBudget := if a.toNat = 2 then BitVec.ofNat 24 (w.toNat % 2 ^ 24) else s.pollBudget })
  ∧ ∀ (a : RegAddr) (w : Word) (s : State), s.fsm ≠ .idle →
    exec (.regWr a w) s = .next { s with regRdata := s.readReg a }

/-- R305, R101: while a poll runs, cmd_ready is 0 and a step does not depend on the command port at all. -/
def Obligations.BusyBlockIgnoresCommandPort : Prop :=
  ∀ (s : State) (i : Inputs) (rest : List Inputs) (valid : Bool) (word : CmdWord),
    s.fsm ≠ .idle → s.script = i :: rest →
    s.outputs.cmdReady = false
    ∧ step { s with script := { i with cmdValid := valid, cmdWord := word } :: rest } = step s

/-- R306, R361: a register write in the period in which a POLL is accepted is taken: the poll runs with the budget written,
STEP_BUDGET or POLL_BUDGET, and with the old one where another address is written. -/
def Obligations.WriteWithPollIsTaken : Prop :=
  ∀ (s : State) (arg : Half), s.fsm = .idle → s.input.rst = false → s.input.cmdValid = true →
    s.input.cmdWord = 0x1#4 ++ 0x0#4 ++ arg → s.input.linkOk = true → s.pos.val ≤ 5 → s.input.regWe = true →
    ∃ t, step s = .next t ∧ t.fsm = .sending ∧ t.attempts = 1#3 ∧ t.pos = s.pos ∧ t.pollT = 0#24 ∧ t.resValid = false
      ∧ t.stepBudget.toNat
          = (if s.input.regAddr.toNat = 1 then max (s.input.regWdata.toNat % 2 ^ 16) 1 else s.stepBudget.toNat)
      ∧ t.pollBudget.toNat = (if s.input.regAddr.toNat = 2 then s.input.regWdata.toNat % 2 ^ 24 else s.pollBudget.toNat)
      ∧ t.facc = s.facc ∧ sameReading s t ∧ sameDiagnostics s t ∧ sameBytes s t ∧ noResponse s t

/-! The step -/

/-- A step with rst = 0 is the decoded register access, then the decoded command if one is presented, then the running
poll's period, then the end of the period (44_acquisition_fsm.md R251; log 8). -/
def Obligations.StepRunsDecodedInstructions : Prop :=
  (∀ s : State, s.input.rst = false →
    step s = andThen (exec (decode (.reg s.input.regWe s.input.regAddr s.input.regWdata)) { s with respValid := false })
      fun s1 => andThen (if s.input.cmdValid then exec (decode (.cmd s.input.cmdWord)) s1 else .next s1)
      fun s2 => andThen (acquire s.fsm s.input s2)
      fun s3 => .next { s3 with script := s3.script.tail, period := s3.period + 1 })
  ∧ ∀ s : State, s.input.rst = false → s.fsm = .idle → s.input.cmdValid = true →
    ∃ t, exec (decode (.reg s.input.regWe s.input.regAddr s.input.regWdata)) { s with respValid := false } = .next t
      ∧ step s = andThen (exec (decode (.cmd s.input.cmdWord)) t)
          fun s2 => .next { s2 with script := s2.script.tail, period := s2.period + 1 }

/-- The step after reset runs the instruction that withFetchWord places (log 16): a command after the register read that
every period makes, a register access alone. -/
def Obligations.FetchWordRunsFirst : Prop :=
  (∀ (p : Params) (w : Nat) (i : Instr), decodeTableWord 24 w = some i →
    step ((State.resetWith p).withFetchWord 24 w)
      = andThen (exec i { (State.resetWith p).withFetchWord 24 w with regRdata := 0x000FFF00#32 })
          fun t => .next t.endPeriod)
  ∧ ∀ (p : Params) (nbits w : Nat) (i : Instr), (nbits = 8 ∨ nbits = 32) → decodeTableWord nbits w = some i →
    step ((State.resetWith p).withFetchWord nbits w)
      = andThen (exec i ((State.resetWith p).withFetchWord nbits w)) fun t => .next t.endPeriod

/-- R350: a period with rst = 1 gives the reset state, whatever the state and the other inputs are; of RXB, which R56 leaves
unspecified, nothing is said. -/
def Obligations.ResetFromAnyState : Prop :=
  ∀ s : State, s.input.rst = true →
    ∃ t, step s = .next t ∧ t.toBlock = { Block.reset s.params with rxb := t.rxb } ∧ t.params = s.params

/-- R56, R352: what reset leaves in every element that the spec gives a value, for every choice of the parameters; and
STATUS then reads 0x000FFF00. -/
def Obligations.ResetValues : Prop :=
  (∀ p : Params, (Block.reset p).fsm = .idle ∧ (Block.reset p).pos = 0 ∧ (Block.reset p).stepT = 0#16
    ∧ (Block.reset p).pollT = 0#24 ∧ (Block.reset p).sendIdx = 0 ∧ (Block.reset p).rxN = 0
    ∧ (Block.reset p).rxState = .capturing ∧ (Block.reset p).attempts = 0#3 ∧ (Block.reset p).facc = 0#16
    ∧ (Block.reset p).stepBudget = p.stepBudgetRst ∧ (Block.reset p).pollBudget = p.pollBudgetRst
    ∧ (Block.reset p).res.soc = 0#16 ∧ (Block.reset p).res.volt = 0#16 ∧ (Block.reset p).res.cur = 0#16
    ∧ (Block.reset p).res.soh = 0#16 ∧ (Block.reset p).res.energy = 0#32 ∧ (Block.reset p).res.tenv = 0#16
    ∧ (Block.reset p).res.tcell = 0#16 ∧ (Block.reset p).res.tmos = 0#16
    ∧ (∀ j : Fin 4, (Block.reset p).res.taux[j.val] = 0#16) ∧ (∀ i : Fin 16, (Block.reset p).res.cell[i.val] = 0#16)
    ∧ (Block.reset p).capRaw = 0#16 ∧ (Block.reset p).resValid = false
    ∧ (Block.reset p).lastOutcome.code = 0xF#4 ∧ (Block.reset p).lastReason.code = 0xF#4
    ∧ classCode (Block.reset p).lastClass = 0xF#4
    ∧ (Block.reset p).diag.rxlen = 0#16 ∧ (Block.reset p).diag.cid2 = 0#16
    ∧ (Block.reset p).diag.lenid = 0#16 ∧ (Block.reset p).diag.lenidP = false
    ∧ (Block.reset p).diag.fchkRx = 0#16 ∧ (Block.reset p).diag.fchkRxP = false
    ∧ (Block.reset p).diag.fchkCalc = 0#16 ∧ (Block.reset p).diag.fchkCalcP = false
    ∧ (Block.reset p).respValid = false ∧ (Block.reset p).respCode.code = 0#4 ∧ (Block.reset p).respData = 0#16)
  ∧ State.reset.toBlock = Block.reset State.reset.params
  ∧ ∀ p : Params, (State.resetWith p).readReg 0x00#6 = 0x000FFF00#32

/-- R336: an IDLE period without reset, command or register write changes no element but resp_valid. -/
def Obligations.IdlePeriodHolds : Prop :=
  ∀ s : State, s.fsm = .idle → s.input.rst = false → s.input.cmdValid = false → s.input.regWe = false →
    step s = .next { s with
      respValid := false
      regRdata := s.readReg s.input.regAddr
      script := s.script.tail
      period := s.period + 1 }

/-- R34, R181, R188, R320: the numbers of the enumerated codes. -/
def Obligations.CodeNumbers : Prop :=
  [Fsm.idle, .sending, .awaiting, .validating, .advance].map (fun c => c.code.toNat) = [0, 1, 2, 3, 4]
  ∧ [RespCode.ok, .failConnection, .failStepTimeout, .failCycleExhausted, .failPollTimeout, .failTransportIo,
      .illegal, .none].map (fun c => c.code.toNat) = [0, 1, 2, 3, 4, 5, 6, 15]
  ∧ [Reason.valid, .noResponse, .nonAscii, .tooShort, .statusNotOk, .lenidFormat, .lenidChecksum, .fchkFormat,
      .fchkMismatch, .bodyShort, .bodyNoCapacity, .bodyFormat, .none].map (fun c => c.code.toNat)
      = [0, 1, 2, 3, 4, 5, 6, 7, 8, 9, 10, 11, 15]
  ∧ [StatusClass.ok, .version, .checksum, .lengthChecksum, .invalidCommand, .commandFormat, .infoDataInvalid, .address,
      .batteryCommunication, .unknown, .none].map (fun c => (classCode c).toNat)
      = [0, 1, 2, 3, 4, 5, 6, 7, 8, 9, 15]

/-! Encoding -/

/-- Every well-formed instruction is what its encoding decodes to, with every operand at every value. -/
def Obligations.DecodeEncodeRoundTrip : Prop :=
  ∀ i : Instr, i.wellFormed = true → decode (encode i) = i

/-- R103: encoding what a command word decodes to gives the word back, less the bits its command ignores, which come back
as 0; every decoded instruction is well formed. -/
def Obligations.EncodeDecodeKeepsOperandBits : Prop :=
  ∀ w : CmdWord, (decodeCmd w).wellFormed = true
    ∧ encode (decodeCmd w) = .cmd (w &&&
        match decodeCmd w with
        | .nop | .poll | .fchkClr | .fchkGet => 0xFF0000#24
        | .lchkGen _ => 0xFF0FFF#24
        | .fchkAdd _ => 0xFF00FF#24
        | .lchkChk _ | .fchkChk _ | .illegal _ | .regRd _ | .regWr _ _ => 0xFFFFFF#24)

/-- R102, R103, R104: every 24-bit word is one of the eight commands, with the operand ARG assembles, or illegal; an accepted
illegal word writes the response only; every accepted word but POLL completes at the edge of its acceptance, and POLL when
the poll ends, which at its acceptance is when it leaves the block in IDLE. -/
def Obligations.EveryWordIsCommandOrIllegal : Prop :=
  ∀ w : CmdWord,
    (decodeCmd w = .illegal w ↔ (8 ≤ w.toNat / 2 ^ 20 ∨ w.toNat / 2 ^ 16 % 16 ≠ 0))
    ∧ (w.toNat / 2 ^ 16 = 0x00 → decodeCmd w = .nop)
    ∧ (w.toNat / 2 ^ 16 = 0x10 → decodeCmd w = .poll)
    ∧ (w.toNat / 2 ^ 16 = 0x20 → decodeCmd w = .lchkGen (BitVec.ofNat 12 (w.toNat % 2 ^ 12)))
    ∧ (w.toNat / 2 ^ 16 = 0x30 → decodeCmd w = .lchkChk (BitVec.ofNat 16 (w.toNat % 2 ^ 16)))
    ∧ (w.toNat / 2 ^ 16 = 0x40 → decodeCmd w = .fchkClr)
    ∧ (w.toNat / 2 ^ 16 = 0x50 → decodeCmd w = .fchkAdd (BitVec.ofNat 8 (w.toNat % 2 ^ 8)))
    ∧ (w.toNat / 2 ^ 16 = 0x60 → decodeCmd w = .fchkGet)
    ∧ (w.toNat / 2 ^ 16 = 0x70 → decodeCmd w = .fchkChk (BitVec.ofNat 16 (w.toNat % 2 ^ 16)))
    ∧ ∀ s : State, s.fsm = .idle →
      ∃ t, exec (decodeCmd w) s = .next t
        ∧ (decodeCmd w = .illegal w → t = { s with respValid := true, respCode := .illegal, respData := 0#16 })
        ∧ (decodeCmd w ≠ .poll → t.fsm = .idle ∧ t.respValid = true)
        ∧ (decodeCmd w = .poll → if t.fsm = .idle then t.respValid = true else t.respValid = s.respValid)

/-- R108: the ten encoding examples of the spec. -/
def Obligations.DecodesTheSpecsWords : Prop :=
  decodeTableWord 24 0x000000 = some .nop
  ∧ decodeTableWord 24 0x100000 = some .poll
  ∧ decodeTableWord 24 0x200076 = some (.lchkGen 0x076#12)
  ∧ decodeTableWord 24 0x303076 = some (.lchkChk 0x3076#16)
  ∧ decodeTableWord 24 0x400000 = some .fchkClr
  ∧ decodeTableWord 24 0x500041 = some (.fchkAdd 0x41#8)
  ∧ decodeTableWord 24 0x600000 = some .fchkGet
  ∧ decodeTableWord 24 0x70FFBF = some (.fchkChk 0xFFBF#16)
  ∧ decodeTableWord 24 0x800000 = some (.illegal 0x800000#24)
  ∧ decodeTableWord 24 0x110000 = some (.illegal 0x110000#24)

/-! The checksum codec -/

/-- R120: frame_checksum is minus the byte sum modulo 2^16, and with the sum it gives 0 mod 2^16. -/
def Obligations.FrameChecksumNegatesByteSum : Prop :=
  ∀ bytes : List Byte, (frameChecksum bytes).toNat = negated16 (byteTotal bytes)
    ∧ (byteTotal bytes + (frameChecksum bytes).toNat) % 65536 = 0

/-- R121: the result depends on the multiset of byte values only, and bytes that sum to 0 mod 2^16 give 0x0000. -/
def Obligations.FrameChecksumIgnoresOrder : Prop :=
  (∀ a b : List Byte, a.Perm b → frameChecksum a = frameChecksum b)
  ∧ ∀ bytes : List Byte, byteTotal bytes % 65536 = 0 → frameChecksum bytes = 0x0000#16

/-- R124, R125: LEN_OK re-applies length_checksum to the low 12 bits; the low 12 bits of length_checksum are its argument;
for every length exactly one of the 16 top nibbles is valid. -/
def Obligations.LengthChecksumRoundTrip : Prop :=
  (∀ f : Half, lenOk f = true ↔ lengthChecksum (BitVec.ofNat 12 (f.toNat % 4096)) = f)
  ∧ (∀ v : BitVec 12, (lengthChecksum v).toNat % 4096 = v.toNat)
  ∧ ∀ v : BitVec 12, ∃ top : BitVec 4, lenOk (top ++ v) = true ∧ ∀ other : BitVec 4, lenOk (other ++ v) = true → other = top

/-- R16: which bytes are hex digits, what each is worth, and that four of them are read with the first most significant. -/
def Obligations.HexDigitsReadBigEndian : Prop :=
  (∀ b : Byte, isHex b = hexChar b)
  ∧ (∀ b : Byte, hexChar b = true → (hexVal b).toNat = digitValue b ∧ digitValue b < 16)
  ∧ ∀ c0 c1 c2 c3 : Byte, hexChar c0 = true → hexChar c1 = true → hexChar c2 = true → hexChar c3 = true →
    (hex4 c0 c1 c2 c3).toNat = digitValue c0 * 4096 + digitValue c1 * 256 + digitValue c2 * 16 + digitValue c3

/-! Frame validation -/

/-- R180: the reason is that of the first check that fails, in the spec's order, and VALID if none fails; the null response
gives NO_RESPONSE. -/
def Obligations.FirstFailingCheckGivesReason : Prop :=
  (∀ p : Params, (validate p none).reason = .noResponse)
  ∧ ∀ (p : Params) (t : List Byte),
    (validate p (some t)).reason = (((orderedChecks p t).find? fun c => c.2).map Prod.fst).getD .valid

/-- R197: each diagnostic is 0 unless the check that reads it was reached, and then holds what the spec says, for every
frame that fits RXB; last_class is 15 unless check (a) was reached; the VALIDATING period writes them all. R188: the class
is OK for the ok code, for another code the entry of the table (the legal map of log 19), and UNKNOWN where it has none. -/
def Obligations.DiagnosticsOfValidation : Prop :=
  (∀ p : Params, (validate p none).diag = ⟨0#16, 0#16, 0#16, false, 0#16, false, 0#16, false⟩
    ∧ (validate p none).cls = .none)
  ∧ (∀ (p : Params) (t : List Byte) (r : Reason), t.length ≤ 65535 → (validate p (some t)).reason = r →
    (validate p (some t)).diag.rxlen.toNat = t.length
    ∧ (if r = .nonAscii ∨ r = .tooShort
        then (validate p (some t)).diag.cid2 = 0#16 ∧ (validate p (some t)).cls = .none
        else (validate p (some t)).diag.cid2.toNat = (charAt t 7).toNat * 256 + (charAt t 8).toNat
          ∧ (validate p (some t)).cls = statusClassOf p (validate p (some t)).diag.cid2)
    ∧ (if r = .nonAscii ∨ r = .tooShort ∨ r = .statusNotOk ∨ r = .lenidFormat
        then (validate p (some t)).diag.lenid = 0#16 ∧ (validate p (some t)).diag.lenidP = false
        else (validate p (some t)).diag.lenid.toNat = numberAt t 9 ∧ (validate p (some t)).diag.lenidP = true)
    ∧ (if r = .nonAscii ∨ r = .tooShort ∨ r = .statusNotOk ∨ r = .lenidFormat ∨ r = .lenidChecksum
        then (validate p (some t)).diag.fchkCalc = 0#16 ∧ (validate p (some t)).diag.fchkCalcP = false
        else (validate p (some t)).diag.fchkCalc.toNat = negated16 (byteTotal ((t.drop 1).take (t.length - 6)))
          ∧ (validate p (some t)).diag.fchkCalcP = true)
    ∧ (if r = .nonAscii ∨ r = .tooShort ∨ r = .statusNotOk ∨ r = .lenidFormat ∨ r = .lenidChecksum ∨ r = .fchkFormat
        then (validate p (some t)).diag.fchkRx = 0#16 ∧ (validate p (some t)).diag.fchkRxP = false
        else (validate p (some t)).diag.fchkRx.toNat = numberAt t (t.length - 5)
          ∧ (validate p (some t)).diag.fchkRxP = true))
  ∧ (∀ s t : State, s.fsm = .validating → s.input.rst = false → step s = .next t →
    t.diag = (validate s.params s.frame).diag ∧ t.lastReason = (validate s.params s.frame).reason
      ∧ t.lastClass = (validate s.params s.frame).cls)
  ∧ ∀ (p : Params) (code : Half), p.legal = true →
    (code = p.okCode → statusClassOf p code = .ok)
    ∧ (code ≠ p.okCode → ∀ c, (code, c) ∈ p.statusClass → statusClassOf p code = c)
    ∧ (code ≠ p.okCode → (∀ c, (code, c) ∉ p.statusClass) → statusClassOf p code = .unknown)

/-- R201: every VALID frame has at least 146 bytes, so no check of a minimum length between 18 and 146 changes which frames
are VALID. -/
def Obligations.ValidFrameHas146Bytes : Prop :=
  ∀ (p : Params) (t : List Byte), (validate p (some t)).reason = .valid → 146 ≤ t.length

/-- R136: a frame built with the two functions of the codec, around any header and any body of 128 to 4095 ASCII characters
whose decoded windows are hex digits, is VALID. -/
def Obligations.BuiltFrameIsValid : Prop :=
  ∀ (p : Params) (marker : Byte) (header body : List Byte), p.legal = true → marker.toNat < 0x80 →
    header.length = 6 → (∀ b ∈ header, b.toNat < 0x80) → (∀ b ∈ body, b.toNat < 0x80) →
    128 ≤ body.length → body.length ≤ 4095 → (∀ o, inWindow o → hexChar (charAt body o) = true) →
    (validate p (some (builtFrame p marker header body))).reason = .valid

/-- R200: a captured frame whose status code is not the ok code never reaches the decoder: its VALIDATING period leaves
the reading as it was, whatever its checksums. -/
def Obligations.NonOkStatusNeverReachesDecoder : Prop :=
  ∀ (s : State) (f : List Byte), s.fsm = .validating → s.input.rst = false → s.frame = some f →
    s.rxN ≤ s.params.rxBufMax → s.pos.val ≤ 5 →
    (charAt f 7).toNat * 256 + (charAt f 8).toNat ≠ s.params.okCode.toNat →
    ∃ t, step s = .next t ∧ sameReading s t ∧ t.resValid = s.resValid ∧ t.fsm = .advance
      ∧ t.pos.val = s.pos.val + 1

/-- R188: STATUS_CLASS affects no control flow: with another table a step gives the same next state but for last_class. -/
def Obligations.StatusClassAffectsNoControlFlow : Prop :=
  ∀ (s t : State) (table : List (Half × StatusClass)), step s = .next t →
    ∃ c, step { s with params := { s.params with statusClass := table } }
      = .next { t with params := { s.params with statusClass := table }, lastClass := c }

/-! The telemetry decoder -/

/-- R262, R154..R157, R159, R161, R162: the VALIDATING period of a VALID frame commits every field of the reading and the
capacity, sets res_valid, resets pos and ends the poll with OK. R261, R330, R331: poll_t counts the period's tick and step_t
keeps; R324: so do send_idx, rx_n, rx_state and RXB. -/
def Obligations.SuccessCommitsReading : Prop :=
  ∀ (s : State) (f : List Byte), s.fsm = .validating → s.input.rst = false → s.frame = some f →
    s.rxN ≤ s.params.rxBufMax → (validate s.params (some f)).reason = .valid →
    ∃ t, step s = .next t
      ∧ t.res.soc.toNat = numberAt f (13 + 2)
      ∧ t.res.volt.toNat = numberAt f (13 + 6)
      ∧ (∀ i : Fin 16, (t.res.cell[i.val]).toNat = numberAt f (13 + 12 + 4 * i.val))
      ∧ t.res.tenv.toNat = numberAt f (13 + 76)
      ∧ t.res.tcell.toNat = numberAt f (13 + 80)
      ∧ t.res.tmos.toNat = numberAt f (13 + 84)
      ∧ (∀ j : Fin 4, (t.res.taux[j.val]).toNat = numberAt f (13 + 90 + 4 * j.val))
      ∧ t.res.cur.toNat = numberAt f (13 + 106)
      ∧ t.res.soh.toNat = numberAt f (13 + 114)
      ∧ t.capRaw.toNat = numberAt f (13 + 124)
      ∧ t.res.energy.toNat = numberAt f (13 + 6) * numberAt f (13 + 124)
      ∧ t.resValid = true ∧ t.pos = 0 ∧ endedWith .ok s.attempts t
      ∧ t.pollT.toNat = min (s.pollT.toNat + s.input.tick.toNat) (2 ^ 24 - 1) ∧ t.stepT = s.stepT
      ∧ sameBuffers s t ∧ sameHostRegisters s t

/-- R158: the current is the field at body offset 106 kept as a 16-bit pattern, and CUR_RAW shows raw − 65536 where raw
exceeds 32767 and raw otherwise, sign-extended to 32 bits. -/
def Obligations.CurrentReadsSigned : Prop :=
  (∀ f : List Byte, (readingOf f).cur = hex4 (charAt f 119) (charAt f 120) (charAt f 121) (charAt f 122))
  ∧ ∀ s : State, (s.readReg 0x12#6).toInt
      = if 32767 < s.res.cur.toNat then (s.res.cur.toNat : Int) - 65536 else (s.res.cur.toNat : Int)

/-- R162: the energy is the exact product of the two raw values and never wraps. -/
def Obligations.EnergyIsExactProduct : Prop :=
  ∀ volt cap : Half, (energyOf volt cap).toNat = volt.toNat * cap.toNat ∧ (energyOf volt cap).toNat ≤ 0xFFFE0001

/-- R163: characters of a body outside the decoded windows do not affect any result register. -/
def Obligations.CharactersOutsideWindowsDoNotMatter : Prop :=
  ∀ f g : List Byte, (∀ o, inWindow o → charAt f (13 + o) = charAt g (13 + o)) →
    readingOf f = readingOf g ∧ capacityOf f = capacityOf g

/-! The periods of a poll -/

/-- R256, R224: a SENDING period, with its events in the spec's order: a write error, the end of the drain, the outer
deadline, the step timeout, or none of them. -/
def Obligations.SendingPeriodEvents : Prop :=
  ∀ (s : State) (req : List Byte), s.fsm = .sending → s.input.rst = false → s.request = some req →
    s.rxN ≤ s.params.rxBufMax →
    ∃ t, step s = .next t
      ∧ t.sendIdx = s.sendIdx + (if s.sendIdx < req.length ∧ s.input.txReady = true then 1 else 0)
      ∧ t.pollT.toNat = min (s.pollT.toNat + s.input.tick.toNat) (2 ^ 24 - 1)
      ∧ t.pos = s.pos ∧ t.resValid = s.resValid ∧ sameReading s t ∧ sameDiagnostics s t ∧ sameHostRegisters s t
      ∧ (if s.input.txErr = true then
          endedWith .failTransportIo s.attempts t ∧ t.stepT = BitVec.ofNat 16 (s.stepT.toNat + s.input.tick.toNat)
        else if s.sendIdx = req.length ∧ s.input.txDrained = true then
          t.fsm = .awaiting ∧ t.stepT = 0#16 ∧ t.attempts = s.attempts ∧ noResponse s t
        else if outerDeadline s then
          endedWith .failPollTimeout s.attempts t ∧ t.stepT = BitVec.ofNat 16 (s.stepT.toNat + s.input.tick.toNat)
        else if stepDeadline s then
          endedWith .failStepTimeout s.attempts t ∧ t.stepT = BitVec.ofNat 16 (s.stepT.toNat + s.input.tick.toNat)
        else
          t.fsm = .sending ∧ t.stepT = BitVec.ofNat 16 (s.stepT.toNat + s.input.tick.toNat)
            ∧ t.attempts = s.attempts ∧ noResponse s t)

/-- R258, R259, R260: an AWAITING period after its capture step, with its events in the spec's order: a complete frame, a
null response or rx_err, the outer deadline, the step timeout, or none of them. -/
def Obligations.AwaitingPeriodEvents : Prop :=
  ∀ s : State, s.fsm = .awaiting → s.input.rst = false → s.rxN ≤ s.params.rxBufMax →
    ∃ t, step s = .next t
      ∧ t.sendIdx = s.sendIdx
      ∧ t.stepT = BitVec.ofNat 16 (s.stepT.toNat + s.input.tick.toNat)
      ∧ t.pollT.toNat = min (s.pollT.toNat + s.input.tick.toNat) (2 ^ 24 - 1)
      ∧ t.pos = s.pos ∧ t.resValid = s.resValid ∧ sameReading s t ∧ sameDiagnostics s t ∧ sameHostRegisters s t
      ∧ (if frameComplete s then
          t.fsm = .validating ∧ t.rxState = .complete ∧ t.attempts = s.attempts ∧ noResponse s t
        else if responseNull s ∨ s.input.rxErr = true then
          t.fsm = .validating ∧ t.rxState = .null ∧ t.attempts = s.attempts ∧ noResponse s t
        else if outerDeadline s then endedWith .failPollTimeout s.attempts t ∧ t.rxState = .capturing
        else if stepDeadline s then endedWith .failStepTimeout s.attempts t ∧ t.rxState = .capturing
        else t.fsm = .awaiting ∧ t.rxState = .capturing ∧ t.attempts = s.attempts ∧ noResponse s t)

/-- R263, R261: the one VALIDATING period of a FrameInvalid advances the cycle and records the verdict, tests no deadline,
and leaves the reading, the response, send_idx, rx_n, rx_state and RXB alone. -/
def Obligations.FrameInvalidAdvancesCycle : Prop :=
  ∀ s : State, s.fsm = .validating → s.input.rst = false → s.pos.val ≤ 5 → s.rxN ≤ s.params.rxBufMax →
    (validate s.params s.frame).reason ≠ .valid →
    ∃ t, step s = .next t
      ∧ t.fsm = .advance ∧ t.pos.val = s.pos.val + 1 ∧ t.stepT = 0#16
      ∧ t.pollT.toNat = min (s.pollT.toNat + s.input.tick.toNat) (2 ^ 24 - 1)
      ∧ t.lastReason = (validate s.params s.frame).reason ∧ t.lastClass = (validate s.params s.frame).cls
      ∧ t.diag = (validate s.params s.frame).diag
      ∧ t.attempts = s.attempts ∧ t.resValid = s.resValid ∧ sameReading s t ∧ sameHostRegisters s t ∧ sameBuffers s t
      ∧ noResponse s t

/-- R264, R265: an ADVANCE period: the outer deadline ends the poll with pos kept; the end of the sleep exhausts the cycle
at pos 6 and otherwise sends the next request; else one more tick is counted. R324: send_idx, rx_n and rx_state keep but at
the entry to SENDING, and RXB reads as before at every offset. -/
def Obligations.AdvancePeriodEvents : Prop :=
  ∀ s : State, s.fsm = .advance → s.input.rst = false →
    ∃ t, step s = .next t
      ∧ t.pollT.toNat = min (s.pollT.toNat + s.input.tick.toNat) (2 ^ 24 - 1)
      ∧ t.resValid = s.resValid ∧ sameReading s t ∧ sameDiagnostics s t ∧ sameHostRegisters s t ∧ sameBytes s t
      ∧ (if outerDeadline s then
          endedWith .failPollTimeout s.attempts t ∧ t.pos = s.pos
            ∧ t.stepT = BitVec.ofNat 16 (s.stepT.toNat + s.input.tick.toNat) ∧ sameBuffers s t
        else if stepDeadline s then
          if 6 ≤ s.pos.val then
            endedWith .failCycleExhausted s.attempts t ∧ t.pos = 0
              ∧ t.stepT = BitVec.ofNat 16 (s.stepT.toNat + s.input.tick.toNat) ∧ sameBuffers s t
          else
            t.fsm = .sending ∧ t.attempts = s.attempts + 1#3 ∧ t.pos = s.pos ∧ t.sendIdx = 0 ∧ t.stepT = 0#16
              ∧ t.rxN = 0 ∧ t.rxState = .capturing ∧ noResponse s t
        else
          t.fsm = .advance ∧ t.pos = s.pos ∧ t.attempts = s.attempts
            ∧ t.stepT = BitVec.ofNat 16 (s.stepT.toNat + s.input.tick.toNat) ∧ sameBuffers s t ∧ noResponse s t)

/-- R227, R228: in the capture window an arriving byte goes to RXB[rx_n], and to no other offset, unless the buffer is full:
the captured bytes are those before it and this one, and with the delimiter they are the frame; a full buffer stores nothing
and the response becomes null; with no byte, or outside CAPTURING, RXB and rx_n keep. R324: rx_state stays CAPTURING through
every other end of the period. -/
def Obligations.CaptureStoresOneByte : Prop :=
  ∀ s : State, (s.fsm = .sending ∧ s.pos.val ≤ 5 ∨ s.fsm = .awaiting) → s.input.rst = false →
    s.rxN ≤ s.params.rxBufMax → Memory.wf s.rxb = true →
    ∃ t, step s = .next t
      ∧ (if byteArrives s ∧ s.rxN ≠ s.params.rxBufMax then
          t.rxN = s.rxN + 1 ∧ Memory.read t.rxb s.rxN = s.input.rxData
            ∧ (∀ j, j ≠ s.rxN → Memory.read t.rxb j = Memory.read s.rxb j)
            ∧ t.captured = s.captured ++ [s.input.rxData]
            ∧ (s.input.rxData = Config.delim → t.frame = some (s.captured ++ [s.input.rxData]))
        else t.rxN = s.rxN ∧ sameBytes s t)
      ∧ (frameComplete s → t.rxState = .complete)
      ∧ (responseNull s → t.rxState = .null)
      ∧ (¬frameComplete s → ¬responseNull s → (s.fsm = .sending ∨ s.input.rxErr = false) → t.rxState = .capturing)

/-- R230: outside the capture window a step does not depend on the received byte at all. -/
def Obligations.BytesOutsideCaptureWindowAreDropped : Prop :=
  ∀ (s : State) (i : Inputs) (rest : List Inputs) (valid : Bool) (data : Byte),
    ((s.fsm ≠ .sending ∧ s.fsm ≠ .awaiting) ∨ s.rxState ≠ .capturing) → s.script = i :: rest →
    step { s with script := { i with rxValid := valid, rxData := data } :: rest } = step s

/-- R231: a delimited byte sequence delivered from an empty buffer, one byte a period with no tick, no error and no reset,
is captured whole and validated, whatever the other inputs do. -/
def Obligations.DeliveredFrameIsCapturedWhole : Prop :=
  ∀ (s : State) (body : List Byte), s.fsm = .awaiting → s.rxState = .capturing → s.rxN = 0 →
    Memory.wf s.rxb = true → s.pollBudget = 0#24 → s.stepT.toNat < s.stepBudget.toNat →
    (∀ b ∈ body, b ≠ Config.delim) → body.length + 1 ≤ s.params.rxBufMax →
    (∀ k, k < body.length + 1 → ∃ i, s.script[k]? = some i ∧ deliversOnly ((body ++ [Config.delim]).getD k 0#8) i) →
    ∃ t, Sys2Proof.core.run (body.length + 1) s = .next t ∧ t.fsm = .validating
      ∧ t.frame = some (body ++ [Config.delim]) ∧ t.pos = s.pos

/-- R222: SENDING offers byte send_idx of the request while there is one, every other state offers nothing; and from the
entry to SENDING, with the transport taking a byte a period and nothing ending the attempt, the k-th period offers byte k of
the request, each byte once and in order, and after the last one nothing. -/
def Obligations.RequestIsOfferedInOrder : Prop :=
  (∀ (s : State) (req : List Byte), s.fsm = .sending → s.request = some req →
    s.outputs.txValid = decide (s.sendIdx < req.length) ∧ s.outputs.txData = req.getD s.sendIdx 0x00#8)
  ∧ (∀ s : State, s.fsm ≠ .sending → s.outputs.txValid = false ∧ s.outputs.txData = 0x00#8)
  ∧ ∀ (s : State) (req : List Byte) (k : Nat), s.fsm = .sending → s.sendIdx = 0 → s.request = some req →
    s.rxN ≤ s.params.rxBufMax → s.pollBudget = 0#24 → s.stepT.toNat < s.stepBudget.toNat → k ≤ req.length →
    (∀ j, j < k → ∃ i, s.script[j]? = some i ∧ takesOnly i) →
    ∃ t, Sys2Proof.core.run k s = .next t ∧ t.fsm = .sending ∧ t.sendIdx = k
      ∧ t.outputs.txValid = decide (k < req.length) ∧ t.outputs.txData = req.getD k 0x00#8

/-! The whole machine -/

/-- Every step keeps the invariant of the machine. -/
def Obligations.StepKeepsInvariant : Prop :=
  ∀ s t : State, Inv s → step s = .next t → Inv t

/-- The reset state meets the invariant, for every legal choice of the parameters. -/
def Obligations.ResetMeetsInvariant : Prop :=
  (∀ p : Params, p.legal = true → Inv (State.resetWith p)) ∧ Inv State.reset

/-- The block never stops: from every state that meets the invariant, every period's inputs give a next state. -/
def Obligations.GoodStateNeverStops : Prop :=
  ∀ s : State, Inv s → ∃ t, step s = .next t

/-- R272: every step keeps the bound on the poll timer: the attempts before this one took at most 3·step_budget+1 ticks each,
and this one what its state allows. -/
def Obligations.StepKeepsPollTimerBound : Prop :=
  ∀ s t : State, Inv s → pollTimerOk s → step s = .next t → pollTimerOk t

/-- R272, R331: under that bound a running poll of a attempts counts at most a·(3·step_budget+1) ticks, at most
18·step_budget+6, and the poll timer never saturates; the same holds after every edge of a poll, the one that ends it among
them, and every tick is counted. -/
def Obligations.PollTimerNeverSaturates : Prop :=
  ∀ s : State, Inv s → pollTimerOk s → s.fsm ≠ .idle →
    (s.pollT.toNat ≤ s.attempts.toNat * (3 * s.stepBudget.toNat + 1)
      ∧ s.pollT.toNat ≤ 18 * s.stepBudget.toNat + 6 ∧ s.pollT.toNat + 1 < 2 ^ 24 - 1)
    ∧ ∀ t, s.input.rst = false → step s = .next t →
      t.pollT.toNat = s.pollT.toNat + s.input.tick.toNat
      ∧ t.pollT.toNat ≤ t.attempts.toNat * (3 * t.stepBudget.toNat + 1)
      ∧ t.pollT.toNat ≤ 18 * t.stepBudget.toNat + 6 ∧ t.pollT.toNat + 1 < 2 ^ 24 - 1

/-- R269 (f): if every period ticks and none resets, a running poll is back in IDLE within 18·step_budget+7 periods. -/
def Obligations.TickingPollEnds : Prop :=
  ∀ s : State, Inv s → pollTimerOk s → s.fsm ≠ .idle →
    (∀ k, k < 18 * s.stepBudget.toNat + 7 → ∃ i, s.script[k]? = some i ∧ i.rst = false ∧ i.tick = true) →
    ∃ (k : Nat) (t : State), k ≤ 18 * s.stepBudget.toNat + 7 ∧ Sys2Proof.core.run k s = .next t ∧ t.fsm = .idle

/-- R269 (c), (d): a step with rst = 0 leaves pos alone, or adds 1 on a FrameInvalid (R263), or makes it 0 where a poll ends
with OK by a VALID frame (R262), or with FAIL_CYCLE_EXHAUSTED at the end of the sleep (R265) or at the acceptance of a POLL
(R254); every other end of a poll leaves it alone. -/
def Obligations.PositionChangesOnlyByTheCycle : Prop :=
  ∀ s t : State, s.input.rst = false → step s = .next t →
    (t.pos = s.pos
      ∨ (t.pos.val = s.pos.val + 1 ∧ s.fsm = .validating ∧ t.fsm = .advance
        ∧ (validate s.params s.frame).reason ≠ .valid)
      ∨ (t.pos = 0 ∧ t.fsm = .idle ∧ t.respValid = true ∧ t.respCode = .ok
        ∧ s.fsm = .validating ∧ (validate s.params s.frame).reason = .valid)
      ∨ (t.pos = 0 ∧ t.fsm = .idle ∧ t.respValid = true ∧ t.respCode = .failCycleExhausted ∧ 6 ≤ s.pos.val
        ∧ (s.fsm = .advance
          ∨ s.fsm = .idle ∧ s.input.cmdValid = true ∧ decodeCmd s.input.cmdWord = .poll ∧ s.input.linkOk = true)))
    ∧ (t.respValid = true → (t.respCode = .failConnection ∨ t.respCode = .failStepTimeout
        ∨ t.respCode = .failPollTimeout ∨ t.respCode = .failTransportIo) → t.pos = s.pos)

/-- R269 (e), R322: with rst = 0 only a success commit changes the reading, cap_raw or sets res_valid. -/
def Obligations.OnlySuccessWritesReading : Prop :=
  ∀ s t : State, s.input.rst = false → step s = .next t →
    (¬sameReading s t ∨ (s.resValid = false ∧ t.resValid = true)) →
    s.fsm = .validating ∧ (validate s.params s.frame).reason = .valid ∧ t.fsm = .idle ∧ t.resValid = true
      ∧ t.respValid = true ∧ t.respCode = .ok ∧ t.lastOutcome = .ok

/-- R361, R47: the budgets change only by a register write in an IDLE period, facc only by FCHK.CLR and FCHK.ADD in one, the
parameters never. -/
def Obligations.HostRegistersChangeOnlyInIdle : Prop :=
  ∀ s t : State, s.input.rst = false → step s = .next t →
    t.params = s.params
    ∧ (t.stepBudget ≠ s.stepBudget → s.fsm = .idle ∧ s.input.regWe = true ∧ s.input.regAddr = 0x01#6)
    ∧ (t.pollBudget ≠ s.pollBudget → s.fsm = .idle ∧ s.input.regWe = true ∧ s.input.regAddr = 0x02#6)
    ∧ (t.facc ≠ s.facc → s.fsm = .idle ∧ s.input.cmdValid = true
        ∧ (decodeCmd s.input.cmdWord = .fchkClr ∨ ∃ b, decodeCmd s.input.cmdWord = .fchkAdd b))

/-- R300: resp_valid is 1 after exactly the periods in which an operation ended: a command accepted that leaves the block in
IDLE, or a running poll that came back to IDLE; otherwise resp_code and resp_data keep their values. -/
def Obligations.OneResponsePerOperation : Prop :=
  ∀ s t : State, s.input.rst = false → step s = .next t →
    (t.respValid = true ↔ t.fsm = .idle ∧ (s.fsm = .idle → s.input.cmdValid = true))
    ∧ (t.respValid = false → t.respCode = s.respCode ∧ t.respData = s.respData)

/-- R55: bytes of RXB at or beyond rx_n are never read: two states that differ in nothing else step to two states that differ
in nothing else, or stop alike. -/
def Obligations.UnreadBufferBytesNeverMatter : Prop :=
  ∀ s u : State, SameButUnread s u →
    (∀ t, step s = .next t → ∃ v, step u = .next v ∧ SameButUnread t v)
    ∧ (∀ e, step s = .fault e → step u = .fault e) ∧ ∀ e, step s = .refused e → step u = .refused e

/-- R10: no state element depends on the byte content of the request frames, only on their lengths. -/
def Obligations.PayloadContentNeverMatters : Prop :=
  ∀ (s t : State) (q : Params), SameButPayloadBytes s.params q → step s = .next t →
    step { s with params := q } = .next { t with params := q }
end

