-- ==== Sys2Proof/Laws/Encoding.lean ====
section
/-! SUPPORT. The fields of a command word, and the codec's two functions, as numbers. -/

namespace Sys2Proof

theorem cmdOp_toNat (w : CmdWord) : (cmdOp w).toNat = w.toNat / 2 ^ 20 := by
  have := w.isLt
  simp only [cmdOp, BitVec.extractLsb'_toNat, Nat.shiftRight_eq_div_pow]
  omega

theorem cmdRsv_toNat (w : CmdWord) : (cmdRsv w).toNat = w.toNat / 2 ^ 16 % 16 := by
  simp [cmdRsv, BitVec.extractLsb'_toNat, Nat.shiftRight_eq_div_pow]

theorem cmdArg_toNat (w : CmdWord) : (cmdArg w).toNat = w.toNat % 2 ^ 16 := by
  simp [cmdArg, BitVec.extractLsb'_toNat]

/-- Concatenation of bit vectors, as numbers. -/
theorem toNat_concat {m n k : Nat} (a : BitVec m) (b : BitVec n) (h : m + n = k) :
    ((a ++ b).cast h).toNat = a.toNat * 2 ^ n + b.toNat := by
  rw [BitVec.toNat_cast, BitVec.toNat_append, Nat.shiftLeft_eq, Nat.mul_comm, Nat.two_pow_add_eq_or_of_lt b.isLt]

theorem cmdWordOf_toNat (op : BitVec 4) (arg : Half) :
    (cmdWordOf op arg).toNat = op.toNat * 2 ^ 20 + arg.toNat := by
  have h1 := toNat_concat op 0#4 rfl
  have h2 := toNat_concat (op ++ 0#4) arg rfl
  simp only [BitVec.cast_eq] at h1 h2
  refine h2.trans ?_
  rw [h1]
  simp only [BitVec.toNat_ofNat]
  omega

@[simp] theorem cmdOp_cmdWordOf (op : BitVec 4) (arg : Half) : cmdOp (cmdWordOf op arg) = op := by
  refine BitVec.eq_of_toNat_eq ?_
  have := arg.isLt
  rw [cmdOp_toNat, cmdWordOf_toNat]
  omega

@[simp] theorem cmdRsv_cmdWordOf (op : BitVec 4) (arg : Half) : cmdRsv (cmdWordOf op arg) = 0#4 := by
  refine BitVec.eq_of_toNat_eq ?_
  have := arg.isLt
  rw [cmdRsv_toNat, cmdWordOf_toNat, BitVec.toNat_ofNat]
  omega

@[simp] theorem cmdArg_cmdWordOf (op : BitVec 4) (arg : Half) : cmdArg (cmdWordOf op arg) = arg := by
  refine BitVec.eq_of_toNat_eq ?_
  have := arg.isLt
  rw [cmdArg_toNat, cmdWordOf_toNat]
  omega

/-- The low bits of a concatenation. -/
theorem argLength_append (ignored : BitVec 4) (v : BitVec 12) : argLength (ignored ++ v) = v := by
  refine BitVec.eq_of_toNat_eq ?_
  have h := toNat_concat ignored v rfl
  simp only [BitVec.cast_eq] at h
  simp only [argLength, BitVec.extractLsb'_toNat, Nat.shiftRight_zero]
  have := v.isLt
  rw [h]
  omega

theorem argChar_append (ignored b : Byte) : argChar (ignored ++ b) = b := by
  refine BitVec.eq_of_toNat_eq ?_
  have h := toNat_concat ignored b rfl
  simp only [BitVec.cast_eq] at h
  simp only [argChar, BitVec.extractLsb'_toNat, Nat.shiftRight_zero]
  have := b.isLt
  rw [h]
  omega

/-- What decodeCmd makes of a word with RSV = 0, by its OP. -/
theorem decodeCmd_cmdWordOf (op : BitVec 4) (arg : Half) :
    decodeCmd (cmdWordOf op arg)
      = match op.toNat with
        | 0 => .nop
        | 1 => .poll
        | 2 => .lchkGen (argLength arg)
        | 3 => .lchkChk arg
        | 4 => .fchkClr
        | 5 => .fchkAdd (argChar arg)
        | 6 => .fchkGet
        | 7 => .fchkChk arg
        | _ => .illegal (cmdWordOf op arg) := by
  have hop := cmdOp_cmdWordOf op arg
  have harg := cmdArg_cmdWordOf op arg
  refine (if_pos (cmdRsv_cmdWordOf op arg)).trans ?_
  generalize cmdOp (cmdWordOf op arg) = o at hop
  generalize cmdArg (cmdWordOf op arg) = a at harg
  subst hop harg
  generalize o.toNat = n
  rcases n with _ | _ | _ | _ | _ | _ | _ | _ | n <;> rfl

namespace Machine

theorem complementSum_toNat (sum : Half) : (complementSum sum).toNat = (65536 - sum.toNat) % 65536 := by
  have := sum.isLt
  simp only [complementSum, BitVec.toNat_add, BitVec.toNat_not, BitVec.toNat_ofNat]
  omega

/-- The wrapping sum, started anywhere. -/
theorem byteSum_foldl (bytes : List Byte) (start : Half) :
    (bytes.foldl (fun sum b => sum + b.setWidth 16) start).toNat
      = (start.toNat + (bytes.map BitVec.toNat).sum) % 65536 := by
  induction bytes generalizing start with
  | nil => simp [Nat.mod_eq_of_lt start.isLt]
  | cons b bytes ih =>
    simp only [List.foldl_cons, ih, List.map_cons, List.sum_cons, BitVec.toNat_add, BitVec.toNat_setWidth]
    have := b.isLt
    omega

theorem byteSum_toNat (bytes : List Byte) : (byteSum bytes).toNat = (bytes.map BitVec.toNat).sum % 65536 := by
  simpa [byteSum] using byteSum_foldl bytes 0#16

theorem lengthChecksum_toNat (v : BitVec 12) :
    (lengthChecksum v).toNat
      = (16 - (v.toNat % 16 + v.toNat / 16 % 16 + v.toNat / 256) % 16) % 16 * 4096 + v.toNat := by
  have h := toNat_concat (~~~(v.extractLsb' 0 4 + v.extractLsb' 4 4 + v.extractLsb' 8 4) + 1#4) v rfl
  simp only [BitVec.cast_eq] at h
  refine h.trans ?_
  have hv := v.isLt
  simp only [BitVec.toNat_add, BitVec.toNat_not, BitVec.toNat_ofNat, BitVec.extractLsb'_toNat,
    Nat.shiftRight_eq_div_pow]
  omega

end Machine

end Sys2Proof
end

