-- ==== Sys2Proof/Laws/Memory.lean ====
section
/-! SUPPORT. The laws of RXB: a read after a write, and that a write keeps the canonical form. -/

namespace Sys2Proof.Machine

theorem Memory.wf_cons {k : Nat} {v : Byte} {m : Memory} :
    Memory.wf ((k, v) :: m) = true ↔ v ≠ Memory.unlisted ∧ (∀ c ∈ m, k < c.1) ∧ Memory.wf m = true := by
  simp [Memory.wf, and_assoc]

/-- An offset below every listed one is not listed. -/
theorem Memory.read_of_lt {m : Memory} {a : Nat} (h : ∀ c ∈ m, a < c.1) : Memory.read m a = Memory.unlisted := by
  induction m with
  | nil => rfl
  | cons c m ih =>
    obtain ⟨k, v⟩ := c
    have hk : a < k := h (k, v) (by simp)
    simp [Memory.read, Nat.ne_of_gt hk, ih fun c hc => h c (by simp [hc])]

/-- The listed offsets after a write: the one written, and those listed before. -/
theorem Memory.mem_write {m : Memory} {a : Nat} {b : Byte} {c : Host.Cell} (h : c ∈ Memory.write m a b) :
    c.1 = a ∨ c ∈ m := by
  induction m with
  | nil =>
    rw [Memory.write] at h
    split at h <;> simp_all
  | cons d m ih =>
    obtain ⟨k, v⟩ := d
    rw [Memory.write] at h
    split at h
    · split at h <;> simp_all
      rcases h with h | h | h <;> simp [h]
    · split at h
      · split at h <;> simp_all
        rcases h with h | h <;> simp [h]
      · rcases List.mem_cons.1 h with h | h
        · simp [h]
        · rcases ih h with h | h <;> simp [h]

/-- Every write keeps the canonical form. -/
theorem Memory.write_wf {m : Memory} (a : Nat) (b : Byte) (h : Memory.wf m = true) :
    Memory.wf (Memory.write m a b) = true := by
  induction m with
  | nil =>
    rw [Memory.write]
    split <;> simp_all [Memory.wf]
  | cons d m ih =>
    obtain ⟨k, v⟩ := d
    obtain ⟨hv, hk, hm⟩ := Memory.wf_cons.1 h
    rw [Memory.write]
    split
    · split
      · exact h
      · rename_i hak hb
        refine Memory.wf_cons.2 ⟨hb, fun c hc => ?_, h⟩
        rcases List.mem_cons.1 hc with rfl | hc
        · exact hak
        · exact Nat.lt_trans hak (hk c hc)
    · split
      · split
        · exact hm
        · rename_i hak hb
          subst hak
          exact Memory.wf_cons.2 ⟨hb, hk, hm⟩
      · rename_i h1 h2
        refine Memory.wf_cons.2 ⟨hv, fun c hc => ?_, ih hm⟩
        rcases Memory.mem_write hc with hc | hc
        · omega
        · exact hk c hc

/-- A read after a write: the byte written there, the old byte everywhere else. -/
theorem Memory.read_write {m : Memory} (a x : Nat) (b : Byte) (h : Memory.wf m = true) :
    Memory.read (Memory.write m a b) x = if x = a then b else Memory.read m x := by
  induction m with
  | nil =>
    by_cases hb : b = Memory.unlisted
    · simp [Memory.write, Memory.read, hb]
    · simp [Memory.write, Memory.read, hb, eq_comm (a := x)]
  | cons d m ih =>
    obtain ⟨k, v⟩ := d
    obtain ⟨hv, hk, hm⟩ := Memory.wf_cons.1 h
    rw [Memory.write]
    split
    · rename_i hak
      have hold : Memory.read ((k, v) :: m) a = Memory.unlisted := by
        refine Memory.read_of_lt fun c hc => ?_
        rcases List.mem_cons.1 hc with rfl | hc
        · exact hak
        · exact Nat.lt_trans hak (hk c hc)
      split
      · rename_i hb
        split
        · rename_i hx
          subst hx
          rw [hold, hb]
        · rfl
      · by_cases hx : x = a
        · simp [Memory.read, hx]
        · rw [Memory.read, if_neg (Ne.symm hx), if_neg hx]
    · split
      · rename_i hak
        subst hak
        split
        · rename_i hb
          by_cases hx : x = a
          · subst hx; simp [Memory.read_of_lt hk, hb]
          · simp [Memory.read, hx, Ne.symm hx]
        · by_cases hx : x = a
          · simp [Memory.read, hx]
          · simp [Memory.read, hx, Ne.symm hx]
      · rename_i h1 h2
        by_cases hxk : k = x
        · subst hxk
          simp [Memory.read, Ne.symm h2]
        · simp only [Memory.read, if_neg hxk]
          exact ih hm

theorem Memory.read_write_same {m : Memory} (a : Nat) (b : Byte) (h : Memory.wf m = true) :
    Memory.read (Memory.write m a b) a = b := by rw [Memory.read_write a a b h, if_pos rfl]

theorem Memory.read_write_other {m : Memory} {a x : Nat} (b : Byte) (h : Memory.wf m = true) (hx : x ≠ a) :
    Memory.read (Memory.write m a b) x = Memory.read m x := by rw [Memory.read_write a x b h, if_neg hx]

@[simp] theorem Memory.length_upTo (m : Memory) (n : Nat) : (Memory.upTo m n).length = n := by simp [Memory.upTo]

/-- Appending one byte to a captured frame. -/
theorem Memory.upTo_write {m : Memory} (n : Nat) (b : Byte) (h : Memory.wf m = true) :
    Memory.upTo (Memory.write m n b) (n + 1) = Memory.upTo m n ++ [b] := by
  simp only [Memory.upTo, List.range_succ, List.map_append, List.map_cons, List.map_nil,
    Memory.read_write_same n b h]
  congr 1
  refine List.map_congr_left fun x hx => ?_
  exact Memory.read_write_other b h (Nat.ne_of_lt (List.mem_range.1 hx))

/-- The frame read depends only on the bytes below its length. -/
theorem Memory.upTo_congr {m m' : Memory} {n : Nat} (h : ∀ x < n, Memory.read m x = Memory.read m' x) :
    Memory.upTo m n = Memory.upTo m' n :=
  List.map_congr_left fun x hx => h x (List.mem_range.1 hx)

/-- The reset block's RXB is in canonical form. -/
theorem Memory.reset_wf : Memory.wf State.reset.rxb = true := rfl

end Sys2Proof.Machine
end

