-- ==== Sys2Proof/Laws/State.lean ====
section
/-! SUPPORT. What each update of the state leaves in each field: one lemma per field and update, so that no proof unfolds a
record update. -/

namespace Sys2Proof.Machine

/-! endPeriod and sampleReg leave the block alone; resetBlock gives the reset block -/

@[simp] theorem State.endPeriod_toBlock (s : State) : s.endPeriod.toBlock = s.toBlock := rfl
@[simp] theorem State.endPeriod_params (s : State) : s.endPeriod.params = s.params := rfl
@[simp] theorem State.endPeriod_script (s : State) : s.endPeriod.script = s.script.tail := rfl
@[simp] theorem State.endPeriod_period (s : State) : s.endPeriod.period = s.period + 1 := rfl
@[simp] theorem State.endPeriod_regRdata (s : State) : s.endPeriod.regRdata = s.regRdata := rfl
@[simp] theorem State.sampleReg_toBlock (s : State) (a : RegAddr) : (s.sampleReg a).toBlock = s.toBlock := rfl
@[simp] theorem State.sampleReg_params (s : State) (a : RegAddr) : (s.sampleReg a).params = s.params := rfl
@[simp] theorem State.sampleReg_script (s : State) (a : RegAddr) : (s.sampleReg a).script = s.script := rfl
@[simp] theorem State.sampleReg_period (s : State) (a : RegAddr) : (s.sampleReg a).period = s.period := rfl
@[simp] theorem State.sampleReg_input (s : State) (a : RegAddr) : (s.sampleReg a).input = s.input := rfl
@[simp] theorem State.sampleReg_regRdata (s : State) (a : RegAddr) : (s.sampleReg a).regRdata = s.readReg a := rfl
@[simp] theorem State.resetBlock_toBlock (s : State) : s.resetBlock.toBlock = Block.reset s.params := rfl
@[simp] theorem State.resetBlock_params (s : State) : s.resetBlock.params = s.params := rfl
@[simp] theorem State.resetBlock_script (s : State) : s.resetBlock.script = s.script := rfl
@[simp] theorem State.resetBlock_period (s : State) : s.resetBlock.period = s.period := rfl
@[simp] theorem State.resetBlock_regRdata (s : State) : s.resetBlock.regRdata = s.regRdata := rfl
@[simp] theorem State.resetWith_params (p : Params) : (State.resetWith p).params = p := rfl
@[simp] theorem State.resetWith_toBlock (p : Params) : (State.resetWith p).toBlock = Block.reset p := rfl

/-! beginPeriod -/
@[simp] theorem State.beginPeriod_fsm (s : State) : (s.beginPeriod).fsm = s.fsm := rfl
@[simp] theorem State.beginPeriod_pos (s : State) : (s.beginPeriod).pos = s.pos := rfl
@[simp] theorem State.beginPeriod_stepT (s : State) : (s.beginPeriod).stepT = s.stepT := rfl
@[simp] theorem State.beginPeriod_pollT (s : State) : (s.beginPeriod).pollT = s.pollT := rfl
@[simp] theorem State.beginPeriod_sendIdx (s : State) : (s.beginPeriod).sendIdx = s.sendIdx := rfl
@[simp] theorem State.beginPeriod_rxb (s : State) : (s.beginPeriod).rxb = s.rxb := rfl
@[simp] theorem State.beginPeriod_rxN (s : State) : (s.beginPeriod).rxN = s.rxN := rfl
@[simp] theorem State.beginPeriod_rxState (s : State) : (s.beginPeriod).rxState = s.rxState := rfl
@[simp] theorem State.beginPeriod_attempts (s : State) : (s.beginPeriod).attempts = s.attempts := rfl
@[simp] theorem State.beginPeriod_facc (s : State) : (s.beginPeriod).facc = s.facc := rfl
@[simp] theorem State.beginPeriod_stepBudget (s : State) : (s.beginPeriod).stepBudget = s.stepBudget := rfl
@[simp] theorem State.beginPeriod_pollBudget (s : State) : (s.beginPeriod).pollBudget = s.pollBudget := rfl
@[simp] theorem State.beginPeriod_res (s : State) : (s.beginPeriod).res = s.res := rfl
@[simp] theorem State.beginPeriod_capRaw (s : State) : (s.beginPeriod).capRaw = s.capRaw := rfl
@[simp] theorem State.beginPeriod_resValid (s : State) : (s.beginPeriod).resValid = s.resValid := rfl
@[simp] theorem State.beginPeriod_lastOutcome (s : State) : (s.beginPeriod).lastOutcome = s.lastOutcome := rfl
@[simp] theorem State.beginPeriod_lastReason (s : State) : (s.beginPeriod).lastReason = s.lastReason := rfl
@[simp] theorem State.beginPeriod_lastClass (s : State) : (s.beginPeriod).lastClass = s.lastClass := rfl
@[simp] theorem State.beginPeriod_diag (s : State) : (s.beginPeriod).diag = s.diag := rfl
@[simp] theorem State.beginPeriod_respValid (s : State) : (s.beginPeriod).respValid = false := rfl
@[simp] theorem State.beginPeriod_respCode (s : State) : (s.beginPeriod).respCode = s.respCode := rfl
@[simp] theorem State.beginPeriod_respData (s : State) : (s.beginPeriod).respData = s.respData := rfl
@[simp] theorem State.beginPeriod_params (s : State) : (s.beginPeriod).params = s.params := rfl
@[simp] theorem State.beginPeriod_script (s : State) : (s.beginPeriod).script = s.script := rfl
@[simp] theorem State.beginPeriod_period (s : State) : (s.beginPeriod).period = s.period := rfl
@[simp] theorem State.beginPeriod_regRdata (s : State) : (s.beginPeriod).regRdata = s.regRdata := rfl
@[simp] theorem State.beginPeriod_input (s : State) : (s.beginPeriod).input = s.input := rfl

/-! respond -/
@[simp] theorem State.respond_fsm (s : State) (c : RespCode) (d : Half) : (s.respond c d).fsm = s.fsm := rfl
@[simp] theorem State.respond_pos (s : State) (c : RespCode) (d : Half) : (s.respond c d).pos = s.pos := rfl
@[simp] theorem State.respond_stepT (s : State) (c : RespCode) (d : Half) : (s.respond c d).stepT = s.stepT := rfl
@[simp] theorem State.respond_pollT (s : State) (c : RespCode) (d : Half) : (s.respond c d).pollT = s.pollT := rfl
@[simp] theorem State.respond_sendIdx (s : State) (c : RespCode) (d : Half) : (s.respond c d).sendIdx = s.sendIdx := rfl
@[simp] theorem State.respond_rxb (s : State) (c : RespCode) (d : Half) : (s.respond c d).rxb = s.rxb := rfl
@[simp] theorem State.respond_rxN (s : State) (c : RespCode) (d : Half) : (s.respond c d).rxN = s.rxN := rfl
@[simp] theorem State.respond_rxState (s : State) (c : RespCode) (d : Half) : (s.respond c d).rxState = s.rxState := rfl
@[simp] theorem State.respond_attempts (s : State) (c : RespCode) (d : Half) : (s.respond c d).attempts = s.attempts := rfl
@[simp] theorem State.respond_facc (s : State) (c : RespCode) (d : Half) : (s.respond c d).facc = s.facc := rfl
@[simp] theorem State.respond_stepBudget (s : State) (c : RespCode) (d : Half) : (s.respond c d).stepBudget = s.stepBudget := rfl
@[simp] theorem State.respond_pollBudget (s : State) (c : RespCode) (d : Half) : (s.respond c d).pollBudget = s.pollBudget := rfl
@[simp] theorem State.respond_res (s : State) (c : RespCode) (d : Half) : (s.respond c d).res = s.res := rfl
@[simp] theorem State.respond_capRaw (s : State) (c : RespCode) (d : Half) : (s.respond c d).capRaw = s.capRaw := rfl
@[simp] theorem State.respond_resValid (s : State) (c : RespCode) (d : Half) : (s.respond c d).resValid = s.resValid := rfl
@[simp] theorem State.respond_lastOutcome (s : State) (c : RespCode) (d : Half) : (s.respond c d).lastOutcome = s.lastOutcome := rfl
@[simp] theorem State.respond_lastReason (s : State) (c : RespCode) (d : Half) : (s.respond c d).lastReason = s.lastReason := rfl
@[simp] theorem State.respond_lastClass (s : State) (c : RespCode) (d : Half) : (s.respond c d).lastClass = s.lastClass := rfl
@[simp] theorem State.respond_diag (s : State) (c : RespCode) (d : Half) : (s.respond c d).diag = s.diag := rfl
@[simp] theorem State.respond_respValid (s : State) (c : RespCode) (d : Half) : (s.respond c d).respValid = true := rfl
@[simp] theorem State.respond_respCode (s : State) (c : RespCode) (d : Half) : (s.respond c d).respCode = c := rfl
@[simp] theorem State.respond_respData (s : State) (c : RespCode) (d : Half) : (s.respond c d).respData = d := rfl
@[simp] theorem State.respond_params (s : State) (c : RespCode) (d : Half) : (s.respond c d).params = s.params := rfl
@[simp] theorem State.respond_script (s : State) (c : RespCode) (d : Half) : (s.respond c d).script = s.script := rfl
@[simp] theorem State.respond_period (s : State) (c : RespCode) (d : Half) : (s.respond c d).period = s.period := rfl
@[simp] theorem State.respond_regRdata (s : State) (c : RespCode) (d : Half) : (s.respond c d).regRdata = s.regRdata := rfl
@[simp] theorem State.respond_input (s : State) (c : RespCode) (d : Half) : (s.respond c d).input = s.input := rfl

/-! endPoll -/
@[simp] theorem State.endPoll_fsm (s : State) (c : RespCode) : (s.endPoll c).fsm = .idle := rfl
@[simp] theorem State.endPoll_pos (s : State) (c : RespCode) : (s.endPoll c).pos = s.pos := rfl
@[simp] theorem State.endPoll_stepT (s : State) (c : RespCode) : (s.endPoll c).stepT = s.stepT := rfl
@[simp] theorem State.endPoll_pollT (s : State) (c : RespCode) : (s.endPoll c).pollT = s.pollT := rfl
@[simp] theorem State.endPoll_sendIdx (s : State) (c : RespCode) : (s.endPoll c).sendIdx = s.sendIdx := rfl
@[simp] theorem State.endPoll_rxb (s : State) (c : RespCode) : (s.endPoll c).rxb = s.rxb := rfl
@[simp] theorem State.endPoll_rxN (s : State) (c : RespCode) : (s.endPoll c).rxN = s.rxN := rfl
@[simp] theorem State.endPoll_rxState (s : State) (c : RespCode) : (s.endPoll c).rxState = s.rxState := rfl
@[simp] theorem State.endPoll_attempts (s : State) (c : RespCode) : (s.endPoll c).attempts = s.attempts := rfl
@[simp] theorem State.endPoll_facc (s : State) (c : RespCode) : (s.endPoll c).facc = s.facc := rfl
@[simp] theorem State.endPoll_stepBudget (s : State) (c : RespCode) : (s.endPoll c).stepBudget = s.stepBudget := rfl
@[simp] theorem State.endPoll_pollBudget (s : State) (c : RespCode) : (s.endPoll c).pollBudget = s.pollBudget := rfl
@[simp] theorem State.endPoll_res (s : State) (c : RespCode) : (s.endPoll c).res = s.res := rfl
@[simp] theorem State.endPoll_capRaw (s : State) (c : RespCode) : (s.endPoll c).capRaw = s.capRaw := rfl
@[simp] theorem State.endPoll_resValid (s : State) (c : RespCode) : (s.endPoll c).resValid = s.resValid := rfl
@[simp] theorem State.endPoll_lastOutcome (s : State) (c : RespCode) : (s.endPoll c).lastOutcome = c := rfl
@[simp] theorem State.endPoll_lastReason (s : State) (c : RespCode) : (s.endPoll c).lastReason = s.lastReason := rfl
@[simp] theorem State.endPoll_lastClass (s : State) (c : RespCode) : (s.endPoll c).lastClass = s.lastClass := rfl
@[simp] theorem State.endPoll_diag (s : State) (c : RespCode) : (s.endPoll c).diag = s.diag := rfl
@[simp] theorem State.endPoll_respValid (s : State) (c : RespCode) : (s.endPoll c).respValid = true := rfl
@[simp] theorem State.endPoll_respCode (s : State) (c : RespCode) : (s.endPoll c).respCode = c := rfl
@[simp] theorem State.endPoll_respData (s : State) (c : RespCode) : (s.endPoll c).respData = 0#13 ++ s.attempts := rfl
@[simp] theorem State.endPoll_params (s : State) (c : RespCode) : (s.endPoll c).params = s.params := rfl
@[simp] theorem State.endPoll_script (s : State) (c : RespCode) : (s.endPoll c).script = s.script := rfl
@[simp] theorem State.endPoll_period (s : State) (c : RespCode) : (s.endPoll c).period = s.period := rfl
@[simp] theorem State.endPoll_regRdata (s : State) (c : RespCode) : (s.endPoll c).regRdata = s.regRdata := rfl
@[simp] theorem State.endPoll_input (s : State) (c : RespCode) : (s.endPoll c).input = s.input := rfl

/-! enterSending -/
@[simp] theorem State.enterSending_fsm (s : State) : (s.enterSending).fsm = .sending := rfl
@[simp] theorem State.enterSending_pos (s : State) : (s.enterSending).pos = s.pos := rfl
@[simp] theorem State.enterSending_stepT (s : State) : (s.enterSending).stepT = 0#16 := rfl
@[simp] theorem State.enterSending_pollT (s : State) : (s.enterSending).pollT = s.pollT := rfl
@[simp] theorem State.enterSending_sendIdx (s : State) : (s.enterSending).sendIdx = 0 := rfl
@[simp] theorem State.enterSending_rxb (s : State) : (s.enterSending).rxb = s.rxb := rfl
@[simp] theorem State.enterSending_rxN (s : State) : (s.enterSending).rxN = 0 := rfl
@[simp] theorem State.enterSending_rxState (s : State) : (s.enterSending).rxState = .capturing := rfl
@[simp] theorem State.enterSending_attempts (s : State) : (s.enterSending).attempts = s.attempts := rfl
@[simp] theorem State.enterSending_facc (s : State) : (s.enterSending).facc = s.facc := rfl
@[simp] theorem State.enterSending_stepBudget (s : State) : (s.enterSending).stepBudget = s.stepBudget := rfl
@[simp] theorem State.enterSending_pollBudget (s : State) : (s.enterSending).pollBudget = s.pollBudget := rfl
@[simp] theorem State.enterSending_res (s : State) : (s.enterSending).res = s.res := rfl
@[simp] theorem State.enterSending_capRaw (s : State) : (s.enterSending).capRaw = s.capRaw := rfl
@[simp] theorem State.enterSending_resValid (s : State) : (s.enterSending).resValid = s.resValid := rfl
@[simp] theorem State.enterSending_lastOutcome (s : State) : (s.enterSending).lastOutcome = s.lastOutcome := rfl
@[simp] theorem State.enterSending_lastReason (s : State) : (s.enterSending).lastReason = s.lastReason := rfl
@[simp] theorem State.enterSending_lastClass (s : State) : (s.enterSending).lastClass = s.lastClass := rfl
@[simp] theorem State.enterSending_diag (s : State) : (s.enterSending).diag = s.diag := rfl
@[simp] theorem State.enterSending_respValid (s : State) : (s.enterSending).respValid = s.respValid := rfl
@[simp] theorem State.enterSending_respCode (s : State) : (s.enterSending).respCode = s.respCode := rfl
@[simp] theorem State.enterSending_respData (s : State) : (s.enterSending).respData = s.respData := rfl
@[simp] theorem State.enterSending_params (s : State) : (s.enterSending).params = s.params := rfl
@[simp] theorem State.enterSending_script (s : State) : (s.enterSending).script = s.script := rfl
@[simp] theorem State.enterSending_period (s : State) : (s.enterSending).period = s.period := rfl
@[simp] theorem State.enterSending_regRdata (s : State) : (s.enterSending).regRdata = s.regRdata := rfl
@[simp] theorem State.enterSending_input (s : State) : (s.enterSending).input = s.input := rfl

/-! enterAwaiting -/
@[simp] theorem State.enterAwaiting_fsm (s : State) : (s.enterAwaiting).fsm = .awaiting := rfl
@[simp] theorem State.enterAwaiting_pos (s : State) : (s.enterAwaiting).pos = s.pos := rfl
@[simp] theorem State.enterAwaiting_stepT (s : State) : (s.enterAwaiting).stepT = 0#16 := rfl
@[simp] theorem State.enterAwaiting_pollT (s : State) : (s.enterAwaiting).pollT = s.pollT := rfl
@[simp] theorem State.enterAwaiting_sendIdx (s : State) : (s.enterAwaiting).sendIdx = s.sendIdx := rfl
@[simp] theorem State.enterAwaiting_rxb (s : State) : (s.enterAwaiting).rxb = s.rxb := rfl
@[simp] theorem State.enterAwaiting_rxN (s : State) : (s.enterAwaiting).rxN = s.rxN := rfl
@[simp] theorem State.enterAwaiting_rxState (s : State) : (s.enterAwaiting).rxState = s.rxState := rfl
@[simp] theorem State.enterAwaiting_attempts (s : State) : (s.enterAwaiting).attempts = s.attempts := rfl
@[simp] theorem State.enterAwaiting_facc (s : State) : (s.enterAwaiting).facc = s.facc := rfl
@[simp] theorem State.enterAwaiting_stepBudget (s : State) : (s.enterAwaiting).stepBudget = s.stepBudget := rfl
@[simp] theorem State.enterAwaiting_pollBudget (s : State) : (s.enterAwaiting).pollBudget = s.pollBudget := rfl
@[simp] theorem State.enterAwaiting_res (s : State) : (s.enterAwaiting).res = s.res := rfl
@[simp] theorem State.enterAwaiting_capRaw (s : State) : (s.enterAwaiting).capRaw = s.capRaw := rfl
@[simp] theorem State.enterAwaiting_resValid (s : State) : (s.enterAwaiting).resValid = s.resValid := rfl
@[simp] theorem State.enterAwaiting_lastOutcome (s : State) : (s.enterAwaiting).lastOutcome = s.lastOutcome := rfl
@[simp] theorem State.enterAwaiting_lastReason (s : State) : (s.enterAwaiting).lastReason = s.lastReason := rfl
@[simp] theorem State.enterAwaiting_lastClass (s : State) : (s.enterAwaiting).lastClass = s.lastClass := rfl
@[simp] theorem State.enterAwaiting_diag (s : State) : (s.enterAwaiting).diag = s.diag := rfl
@[simp] theorem State.enterAwaiting_respValid (s : State) : (s.enterAwaiting).respValid = s.respValid := rfl
@[simp] theorem State.enterAwaiting_respCode (s : State) : (s.enterAwaiting).respCode = s.respCode := rfl
@[simp] theorem State.enterAwaiting_respData (s : State) : (s.enterAwaiting).respData = s.respData := rfl
@[simp] theorem State.enterAwaiting_params (s : State) : (s.enterAwaiting).params = s.params := rfl
@[simp] theorem State.enterAwaiting_script (s : State) : (s.enterAwaiting).script = s.script := rfl
@[simp] theorem State.enterAwaiting_period (s : State) : (s.enterAwaiting).period = s.period := rfl
@[simp] theorem State.enterAwaiting_regRdata (s : State) : (s.enterAwaiting).regRdata = s.regRdata := rfl
@[simp] theorem State.enterAwaiting_input (s : State) : (s.enterAwaiting).input = s.input := rfl

/-! countPoll -/
@[simp] theorem State.countPoll_fsm (s : State) (i : Inputs) : (s.countPoll i).fsm = s.fsm := rfl
@[simp] theorem State.countPoll_pos (s : State) (i : Inputs) : (s.countPoll i).pos = s.pos := rfl
@[simp] theorem State.countPoll_stepT (s : State) (i : Inputs) : (s.countPoll i).stepT = s.stepT := rfl
@[simp] theorem State.countPoll_pollT (s : State) (i : Inputs) : (s.countPoll i).pollT = BitVec.ofNat 24 (s.pollSum i) := rfl
@[simp] theorem State.countPoll_sendIdx (s : State) (i : Inputs) : (s.countPoll i).sendIdx = s.sendIdx := rfl
@[simp] theorem State.countPoll_rxb (s : State) (i : Inputs) : (s.countPoll i).rxb = s.rxb := rfl
@[simp] theorem State.countPoll_rxN (s : State) (i : Inputs) : (s.countPoll i).rxN = s.rxN := rfl
@[simp] theorem State.countPoll_rxState (s : State) (i : Inputs) : (s.countPoll i).rxState = s.rxState := rfl
@[simp] theorem State.countPoll_attempts (s : State) (i : Inputs) : (s.countPoll i).attempts = s.attempts := rfl
@[simp] theorem State.countPoll_facc (s : State) (i : Inputs) : (s.countPoll i).facc = s.facc := rfl
@[simp] theorem State.countPoll_stepBudget (s : State) (i : Inputs) : (s.countPoll i).stepBudget = s.stepBudget := rfl
@[simp] theorem State.countPoll_pollBudget (s : State) (i : Inputs) : (s.countPoll i).pollBudget = s.pollBudget := rfl
@[simp] theorem State.countPoll_res (s : State) (i : Inputs) : (s.countPoll i).res = s.res := rfl
@[simp] theorem State.countPoll_capRaw (s : State) (i : Inputs) : (s.countPoll i).capRaw = s.capRaw := rfl
@[simp] theorem State.countPoll_resValid (s : State) (i : Inputs) : (s.countPoll i).resValid = s.resValid := rfl
@[simp] theorem State.countPoll_lastOutcome (s : State) (i : Inputs) : (s.countPoll i).lastOutcome = s.lastOutcome := rfl
@[simp] theorem State.countPoll_lastReason (s : State) (i : Inputs) : (s.countPoll i).lastReason = s.lastReason := rfl
@[simp] theorem State.countPoll_lastClass (s : State) (i : Inputs) : (s.countPoll i).lastClass = s.lastClass := rfl
@[simp] theorem State.countPoll_diag (s : State) (i : Inputs) : (s.countPoll i).diag = s.diag := rfl
@[simp] theorem State.countPoll_respValid (s : State) (i : Inputs) : (s.countPoll i).respValid = s.respValid := rfl
@[simp] theorem State.countPoll_respCode (s : State) (i : Inputs) : (s.countPoll i).respCode = s.respCode := rfl
@[simp] theorem State.countPoll_respData (s : State) (i : Inputs) : (s.countPoll i).respData = s.respData := rfl
@[simp] theorem State.countPoll_params (s : State) (i : Inputs) : (s.countPoll i).params = s.params := rfl
@[simp] theorem State.countPoll_script (s : State) (i : Inputs) : (s.countPoll i).script = s.script := rfl
@[simp] theorem State.countPoll_period (s : State) (i : Inputs) : (s.countPoll i).period = s.period := rfl
@[simp] theorem State.countPoll_regRdata (s : State) (i : Inputs) : (s.countPoll i).regRdata = s.regRdata := rfl
@[simp] theorem State.countPoll_input (s : State) (i : Inputs) : (s.countPoll i).input = s.input := rfl

/-! countTicks -/
@[simp] theorem State.countTicks_fsm (s : State) (i : Inputs) : (s.countTicks i).fsm = s.fsm := rfl
@[simp] theorem State.countTicks_pos (s : State) (i : Inputs) : (s.countTicks i).pos = s.pos := rfl
@[simp] theorem State.countTicks_stepT (s : State) (i : Inputs) : (s.countTicks i).stepT = BitVec.ofNat 16 (s.stepSum i) := rfl
@[simp] theorem State.countTicks_pollT (s : State) (i : Inputs) : (s.countTicks i).pollT = BitVec.ofNat 24 (s.pollSum i) := rfl
@[simp] theorem State.countTicks_sendIdx (s : State) (i : Inputs) : (s.countTicks i).sendIdx = s.sendIdx := rfl
@[simp] theorem State.countTicks_rxb (s : State) (i : Inputs) : (s.countTicks i).rxb = s.rxb := rfl
@[simp] theorem State.countTicks_rxN (s : State) (i : Inputs) : (s.countTicks i).rxN = s.rxN := rfl
@[simp] theorem State.countTicks_rxState (s : State) (i : Inputs) : (s.countTicks i).rxState = s.rxState := rfl
@[simp] theorem State.countTicks_attempts (s : State) (i : Inputs) : (s.countTicks i).attempts = s.attempts := rfl
@[simp] theorem State.countTicks_facc (s : State) (i : Inputs) : (s.countTicks i).facc = s.facc := rfl
@[simp] theorem State.countTicks_stepBudget (s : State) (i : Inputs) : (s.countTicks i).stepBudget = s.stepBudget := rfl
@[simp] theorem State.countTicks_pollBudget (s : State) (i : Inputs) : (s.countTicks i).pollBudget = s.pollBudget := rfl
@[simp] theorem State.countTicks_res (s : State) (i : Inputs) : (s.countTicks i).res = s.res := rfl
@[simp] theorem State.countTicks_capRaw (s : State) (i : Inputs) : (s.countTicks i).capRaw = s.capRaw := rfl
@[simp] theorem State.countTicks_resValid (s : State) (i : Inputs) : (s.countTicks i).resValid = s.resValid := rfl
@[simp] theorem State.countTicks_lastOutcome (s : State) (i : Inputs) : (s.countTicks i).lastOutcome = s.lastOutcome := rfl
@[simp] theorem State.countTicks_lastReason (s : State) (i : Inputs) : (s.countTicks i).lastReason = s.lastReason := rfl
@[simp] theorem State.countTicks_lastClass (s : State) (i : Inputs) : (s.countTicks i).lastClass = s.lastClass := rfl
@[simp] theorem State.countTicks_diag (s : State) (i : Inputs) : (s.countTicks i).diag = s.diag := rfl
@[simp] theorem State.countTicks_respValid (s : State) (i : Inputs) : (s.countTicks i).respValid = s.respValid := rfl
@[simp] theorem State.countTicks_respCode (s : State) (i : Inputs) : (s.countTicks i).respCode = s.respCode := rfl
@[simp] theorem State.countTicks_respData (s : State) (i : Inputs) : (s.countTicks i).respData = s.respData := rfl
@[simp] theorem State.countTicks_params (s : State) (i : Inputs) : (s.countTicks i).params = s.params := rfl
@[simp] theorem State.countTicks_script (s : State) (i : Inputs) : (s.countTicks i).script = s.script := rfl
@[simp] theorem State.countTicks_period (s : State) (i : Inputs) : (s.countTicks i).period = s.period := rfl
@[simp] theorem State.countTicks_regRdata (s : State) (i : Inputs) : (s.countTicks i).regRdata = s.regRdata := rfl
@[simp] theorem State.countTicks_input (s : State) (i : Inputs) : (s.countTicks i).input = s.input := rfl

/-! commit -/
@[simp] theorem State.commit_fsm (s : State) (t : List Byte) : (s.commit t).fsm = s.fsm := rfl
@[simp] theorem State.commit_pos (s : State) (t : List Byte) : (s.commit t).pos = 0 := rfl
@[simp] theorem State.commit_stepT (s : State) (t : List Byte) : (s.commit t).stepT = s.stepT := rfl
@[simp] theorem State.commit_pollT (s : State) (t : List Byte) : (s.commit t).pollT = s.pollT := rfl
@[simp] theorem State.commit_sendIdx (s : State) (t : List Byte) : (s.commit t).sendIdx = s.sendIdx := rfl
@[simp] theorem State.commit_rxb (s : State) (t : List Byte) : (s.commit t).rxb = s.rxb := rfl
@[simp] theorem State.commit_rxN (s : State) (t : List Byte) : (s.commit t).rxN = s.rxN := rfl
@[simp] theorem State.commit_rxState (s : State) (t : List Byte) : (s.commit t).rxState = s.rxState := rfl
@[simp] theorem State.commit_attempts (s : State) (t : List Byte) : (s.commit t).attempts = s.attempts := rfl
@[simp] theorem State.commit_facc (s : State) (t : List Byte) : (s.commit t).facc = s.facc := rfl
@[simp] theorem State.commit_stepBudget (s : State) (t : List Byte) : (s.commit t).stepBudget = s.stepBudget := rfl
@[simp] theorem State.commit_pollBudget (s : State) (t : List Byte) : (s.commit t).pollBudget = s.pollBudget := rfl
@[simp] theorem State.commit_res (s : State) (t : List Byte) : (s.commit t).res = readingOf t := rfl
@[simp] theorem State.commit_capRaw (s : State) (t : List Byte) : (s.commit t).capRaw = capacityOf t := rfl
@[simp] theorem State.commit_resValid (s : State) (t : List Byte) : (s.commit t).resValid = true := rfl
@[simp] theorem State.commit_lastOutcome (s : State) (t : List Byte) : (s.commit t).lastOutcome = s.lastOutcome := rfl
@[simp] theorem State.commit_lastReason (s : State) (t : List Byte) : (s.commit t).lastReason = s.lastReason := rfl
@[simp] theorem State.commit_lastClass (s : State) (t : List Byte) : (s.commit t).lastClass = s.lastClass := rfl
@[simp] theorem State.commit_diag (s : State) (t : List Byte) : (s.commit t).diag = s.diag := rfl
@[simp] theorem State.commit_respValid (s : State) (t : List Byte) : (s.commit t).respValid = s.respValid := rfl
@[simp] theorem State.commit_respCode (s : State) (t : List Byte) : (s.commit t).respCode = s.respCode := rfl
@[simp] theorem State.commit_respData (s : State) (t : List Byte) : (s.commit t).respData = s.respData := rfl
@[simp] theorem State.commit_params (s : State) (t : List Byte) : (s.commit t).params = s.params := rfl
@[simp] theorem State.commit_script (s : State) (t : List Byte) : (s.commit t).script = s.script := rfl
@[simp] theorem State.commit_period (s : State) (t : List Byte) : (s.commit t).period = s.period := rfl
@[simp] theorem State.commit_regRdata (s : State) (t : List Byte) : (s.commit t).regRdata = s.regRdata := rfl
@[simp] theorem State.commit_input (s : State) (t : List Byte) : (s.commit t).input = s.input := rfl

/-! record -/
@[simp] theorem State.record_fsm (s : State) (v : Verdict) : (s.record v).fsm = s.fsm := rfl
@[simp] theorem State.record_pos (s : State) (v : Verdict) : (s.record v).pos = s.pos := rfl
@[simp] theorem State.record_stepT (s : State) (v : Verdict) : (s.record v).stepT = s.stepT := rfl
@[simp] theorem State.record_pollT (s : State) (v : Verdict) : (s.record v).pollT = s.pollT := rfl
@[simp] theorem State.record_sendIdx (s : State) (v : Verdict) : (s.record v).sendIdx = s.sendIdx := rfl
@[simp] theorem State.record_rxb (s : State) (v : Verdict) : (s.record v).rxb = s.rxb := rfl
@[simp] theorem State.record_rxN (s : State) (v : Verdict) : (s.record v).rxN = s.rxN := rfl
@[simp] theorem State.record_rxState (s : State) (v : Verdict) : (s.record v).rxState = s.rxState := rfl
@[simp] theorem State.record_attempts (s : State) (v : Verdict) : (s.record v).attempts = s.attempts := rfl
@[simp] theorem State.record_facc (s : State) (v : Verdict) : (s.record v).facc = s.facc := rfl
@[simp] theorem State.record_stepBudget (s : State) (v : Verdict) : (s.record v).stepBudget = s.stepBudget := rfl
@[simp] theorem State.record_pollBudget (s : State) (v : Verdict) : (s.record v).pollBudget = s.pollBudget := rfl
@[simp] theorem State.record_res (s : State) (v : Verdict) : (s.record v).res = s.res := rfl
@[simp] theorem State.record_capRaw (s : State) (v : Verdict) : (s.record v).capRaw = s.capRaw := rfl
@[simp] theorem State.record_resValid (s : State) (v : Verdict) : (s.record v).resValid = s.resValid := rfl
@[simp] theorem State.record_lastOutcome (s : State) (v : Verdict) : (s.record v).lastOutcome = s.lastOutcome := rfl
@[simp] theorem State.record_lastReason (s : State) (v : Verdict) : (s.record v).lastReason = v.reason := rfl
@[simp] theorem State.record_lastClass (s : State) (v : Verdict) : (s.record v).lastClass = v.cls := rfl
@[simp] theorem State.record_diag (s : State) (v : Verdict) : (s.record v).diag = v.diag := rfl
@[simp] theorem State.record_respValid (s : State) (v : Verdict) : (s.record v).respValid = s.respValid := rfl
@[simp] theorem State.record_respCode (s : State) (v : Verdict) : (s.record v).respCode = s.respCode := rfl
@[simp] theorem State.record_respData (s : State) (v : Verdict) : (s.record v).respData = s.respData := rfl
@[simp] theorem State.record_params (s : State) (v : Verdict) : (s.record v).params = s.params := rfl
@[simp] theorem State.record_script (s : State) (v : Verdict) : (s.record v).script = s.script := rfl
@[simp] theorem State.record_period (s : State) (v : Verdict) : (s.record v).period = s.period := rfl
@[simp] theorem State.record_regRdata (s : State) (v : Verdict) : (s.record v).regRdata = s.regRdata := rfl
@[simp] theorem State.record_input (s : State) (v : Verdict) : (s.record v).input = s.input := rfl

/-! writeReg changes the two budgets at most -/
@[simp] theorem State.writeReg_fsm (s : State) (a : RegAddr) (w : Word) : (s.writeReg a w).fsm = s.fsm := by
  unfold State.writeReg; split <;> [rfl; (split <;> rfl)]
@[simp] theorem State.writeReg_pos (s : State) (a : RegAddr) (w : Word) : (s.writeReg a w).pos = s.pos := by
  unfold State.writeReg; split <;> [rfl; (split <;> rfl)]
@[simp] theorem State.writeReg_stepT (s : State) (a : RegAddr) (w : Word) : (s.writeReg a w).stepT = s.stepT := by
  unfold State.writeReg; split <;> [rfl; (split <;> rfl)]
@[simp] theorem State.writeReg_pollT (s : State) (a : RegAddr) (w : Word) : (s.writeReg a w).pollT = s.pollT := by
  unfold State.writeReg; split <;> [rfl; (split <;> rfl)]
@[simp] theorem State.writeReg_sendIdx (s : State) (a : RegAddr) (w : Word) : (s.writeReg a w).sendIdx = s.sendIdx := by
  unfold State.writeReg; split <;> [rfl; (split <;> rfl)]
@[simp] theorem State.writeReg_rxb (s : State) (a : RegAddr) (w : Word) : (s.writeReg a w).rxb = s.rxb := by
  unfold State.writeReg; split <;> [rfl; (split <;> rfl)]
@[simp] theorem State.writeReg_rxN (s : State) (a : RegAddr) (w : Word) : (s.writeReg a w).rxN = s.rxN := by
  unfold State.writeReg; split <;> [rfl; (split <;> rfl)]
@[simp] theorem State.writeReg_rxState (s : State) (a : RegAddr) (w : Word) : (s.writeReg a w).rxState = s.rxState := by
  unfold State.writeReg; split <;> [rfl; (split <;> rfl)]
@[simp] theorem State.writeReg_attempts (s : State) (a : RegAddr) (w : Word) : (s.writeReg a w).attempts = s.attempts := by
  unfold State.writeReg; split <;> [rfl; (split <;> rfl)]
@[simp] theorem State.writeReg_facc (s : State) (a : RegAddr) (w : Word) : (s.writeReg a w).facc = s.facc := by
  unfold State.writeReg; split <;> [rfl; (split <;> rfl)]
@[simp] theorem State.writeReg_res (s : State) (a : RegAddr) (w : Word) : (s.writeReg a w).res = s.res := by
  unfold State.writeReg; split <;> [rfl; (split <;> rfl)]
@[simp] theorem State.writeReg_capRaw (s : State) (a : RegAddr) (w : Word) : (s.writeReg a w).capRaw = s.capRaw := by
  unfold State.writeReg; split <;> [rfl; (split <;> rfl)]
@[simp] theorem State.writeReg_resValid (s : State) (a : RegAddr) (w : Word) : (s.writeReg a w).resValid = s.resValid := by
  unfold State.writeReg; split <;> [rfl; (split <;> rfl)]
@[simp] theorem State.writeReg_lastOutcome (s : State) (a : RegAddr) (w : Word) : (s.writeReg a w).lastOutcome = s.lastOutcome := by
  unfold State.writeReg; split <;> [rfl; (split <;> rfl)]
@[simp] theorem State.writeReg_lastReason (s : State) (a : RegAddr) (w : Word) : (s.writeReg a w).lastReason = s.lastReason := by
  unfold State.writeReg; split <;> [rfl; (split <;> rfl)]
@[simp] theorem State.writeReg_lastClass (s : State) (a : RegAddr) (w : Word) : (s.writeReg a w).lastClass = s.lastClass := by
  unfold State.writeReg; split <;> [rfl; (split <;> rfl)]
@[simp] theorem State.writeReg_diag (s : State) (a : RegAddr) (w : Word) : (s.writeReg a w).diag = s.diag := by
  unfold State.writeReg; split <;> [rfl; (split <;> rfl)]
@[simp] theorem State.writeReg_respValid (s : State) (a : RegAddr) (w : Word) : (s.writeReg a w).respValid = s.respValid := by
  unfold State.writeReg; split <;> [rfl; (split <;> rfl)]
@[simp] theorem State.writeReg_respCode (s : State) (a : RegAddr) (w : Word) : (s.writeReg a w).respCode = s.respCode := by
  unfold State.writeReg; split <;> [rfl; (split <;> rfl)]
@[simp] theorem State.writeReg_respData (s : State) (a : RegAddr) (w : Word) : (s.writeReg a w).respData = s.respData := by
  unfold State.writeReg; split <;> [rfl; (split <;> rfl)]
@[simp] theorem State.writeReg_params (s : State) (a : RegAddr) (w : Word) : (s.writeReg a w).params = s.params := by
  unfold State.writeReg; split <;> [rfl; (split <;> rfl)]
@[simp] theorem State.writeReg_script (s : State) (a : RegAddr) (w : Word) : (s.writeReg a w).script = s.script := by
  unfold State.writeReg; split <;> [rfl; (split <;> rfl)]
@[simp] theorem State.writeReg_period (s : State) (a : RegAddr) (w : Word) : (s.writeReg a w).period = s.period := by
  unfold State.writeReg; split <;> [rfl; (split <;> rfl)]
@[simp] theorem State.writeReg_regRdata (s : State) (a : RegAddr) (w : Word) : (s.writeReg a w).regRdata = s.regRdata := by
  unfold State.writeReg; split <;> [rfl; (split <;> rfl)]
@[simp] theorem State.writeReg_input (s : State) (a : RegAddr) (w : Word) : (s.writeReg a w).input = s.input := by
  unfold State.writeReg; split <;> [rfl; (split <;> rfl)]
@[simp] theorem State.writeReg_stepBudget (s : State) (a : RegAddr) (w : Word) :
    (s.writeReg a w).stepBudget = if a = 0x01#6 then stepBudgetOf w else s.stepBudget := by
  unfold State.writeReg; split <;> [rfl; (split <;> rfl)]
@[simp] theorem State.writeReg_pollBudget (s : State) (a : RegAddr) (w : Word) :
    (s.writeReg a w).pollBudget = if a = 0x02#6 then w.extractLsb' 0 24 else s.pollBudget := by
  unfold State.writeReg
  by_cases h1 : a = 0x01#6
  · subst h1; rfl
  · rw [if_neg h1]; split <;> rfl

/-! transfer changes send_idx at most -/
@[simp] theorem State.transfer_fsm (s : State) (i : Inputs) : (s.transfer i).fsm = s.fsm := by
  unfold State.transfer; split <;> rfl
@[simp] theorem State.transfer_pos (s : State) (i : Inputs) : (s.transfer i).pos = s.pos := by
  unfold State.transfer; split <;> rfl
@[simp] theorem State.transfer_stepT (s : State) (i : Inputs) : (s.transfer i).stepT = s.stepT := by
  unfold State.transfer; split <;> rfl
@[simp] theorem State.transfer_pollT (s : State) (i : Inputs) : (s.transfer i).pollT = s.pollT := by
  unfold State.transfer; split <;> rfl
@[simp] theorem State.transfer_rxb (s : State) (i : Inputs) : (s.transfer i).rxb = s.rxb := by
  unfold State.transfer; split <;> rfl
@[simp] theorem State.transfer_rxN (s : State) (i : Inputs) : (s.transfer i).rxN = s.rxN := by
  unfold State.transfer; split <;> rfl
@[simp] theorem State.transfer_rxState (s : State) (i : Inputs) : (s.transfer i).rxState = s.rxState := by
  unfold State.transfer; split <;> rfl
@[simp] theorem State.transfer_attempts (s : State) (i : Inputs) : (s.transfer i).attempts = s.attempts := by
  unfold State.transfer; split <;> rfl
@[simp] theorem State.transfer_facc (s : State) (i : Inputs) : (s.transfer i).facc = s.facc := by
  unfold State.transfer; split <;> rfl
@[simp] theorem State.transfer_stepBudget (s : State) (i : Inputs) : (s.transfer i).stepBudget = s.stepBudget := by
  unfold State.transfer; split <;> rfl
@[simp] theorem State.transfer_pollBudget (s : State) (i : Inputs) : (s.transfer i).pollBudget = s.pollBudget := by
  unfold State.transfer; split <;> rfl
@[simp] theorem State.transfer_res (s : State) (i : Inputs) : (s.transfer i).res = s.res := by
  unfold State.transfer; split <;> rfl
@[simp] theorem State.transfer_capRaw (s : State) (i : Inputs) : (s.transfer i).capRaw = s.capRaw := by
  unfold State.transfer; split <;> rfl
@[simp] theorem State.transfer_resValid (s : State) (i : Inputs) : (s.transfer i).resValid = s.resValid := by
  unfold State.transfer; split <;> rfl
@[simp] theorem State.transfer_lastOutcome (s : State) (i : Inputs) : (s.transfer i).lastOutcome = s.lastOutcome := by
  unfold State.transfer; split <;> rfl
@[simp] theorem State.transfer_lastReason (s : State) (i : Inputs) : (s.transfer i).lastReason = s.lastReason := by
  unfold State.transfer; split <;> rfl
@[simp] theorem State.transfer_lastClass (s : State) (i : Inputs) : (s.transfer i).lastClass = s.lastClass := by
  unfold State.transfer; split <;> rfl
@[simp] theorem State.transfer_diag (s : State) (i : Inputs) : (s.transfer i).diag = s.diag := by
  unfold State.transfer; split <;> rfl
@[simp] theorem State.transfer_respValid (s : State) (i : Inputs) : (s.transfer i).respValid = s.respValid := by
  unfold State.transfer; split <;> rfl
@[simp] theorem State.transfer_respCode (s : State) (i : Inputs) : (s.transfer i).respCode = s.respCode := by
  unfold State.transfer; split <;> rfl
@[simp] theorem State.transfer_respData (s : State) (i : Inputs) : (s.transfer i).respData = s.respData := by
  unfold State.transfer; split <;> rfl
@[simp] theorem State.transfer_params (s : State) (i : Inputs) : (s.transfer i).params = s.params := by
  unfold State.transfer; split <;> rfl
@[simp] theorem State.transfer_script (s : State) (i : Inputs) : (s.transfer i).script = s.script := by
  unfold State.transfer; split <;> rfl
@[simp] theorem State.transfer_period (s : State) (i : Inputs) : (s.transfer i).period = s.period := by
  unfold State.transfer; split <;> rfl
@[simp] theorem State.transfer_regRdata (s : State) (i : Inputs) : (s.transfer i).regRdata = s.regRdata := by
  unfold State.transfer; split <;> rfl
@[simp] theorem State.transfer_input (s : State) (i : Inputs) : (s.transfer i).input = s.input := by
  unfold State.transfer; split <;> rfl
@[simp] theorem State.transfer_sendIdx (s : State) (i : Inputs) :
    (s.transfer i).sendIdx = if s.txValid && i.txReady then s.sendIdx + 1 else s.sendIdx := by
  unfold State.transfer; split <;> rfl

end Sys2Proof.Machine
end

