-- ==== Sys2Proof/Laws/Ops.lean ====
section
/-! SUPPORT. What each shared operation can do, said once: sequencing, acceptance, capture, the deadlines, the events. -/

namespace Sys2Proof.Machine

@[simp] theorem andThen_next (s : State) (f : State → Result) : andThen (.next s) f = f s := rfl
@[simp] theorem andThen_fault (e : Fault) (f : State → Result) : andThen (.fault e) f = .fault e := rfl
@[simp] theorem andThen_refused (e : Refusal) (f : State → Result) : andThen (.refused e) f = .refused e := rfl

/-- A sequence answers a next state exactly when both of its parts do. -/
theorem andThen_eq_next {r : Result} {f : State → Result} {t : State} :
    andThen r f = .next t ↔ ∃ s, r = .next s ∧ f s = .next t := by
  cases r <;> simp

/-- Something done in IDLE. -/
theorem State.whenAccepted_idle {s : State} (f : State → State) (h : s.fsm = .idle) : s.whenAccepted f = f s :=
  if_pos h

/-- The same presented to a busy block. -/
theorem State.whenAccepted_busy {s : State} (f : State → State) (h : s.fsm ≠ .idle) : s.whenAccepted f = s :=
  if_neg h

/-- The capture step drops a byte, meets a full buffer, or stores the byte at RXB[rx_n]. -/
theorem State.capture_cases {s t : State} {i : Inputs} (h : s.capture i = .next t) :
    (¬(s.rxState = .capturing ∧ i.rxValid = true) ∧ t = s)
    ∨ (s.rxState = .capturing ∧ i.rxValid = true ∧ s.rxN = s.params.rxBufMax ∧ t = { s with rxState := .null })
    ∨ (s.rxState = .capturing ∧ i.rxValid = true ∧ s.rxN < s.params.rxBufMax
        ∧ t = { s with
            rxb := Memory.write s.rxb s.rxN i.rxData
            rxN := s.rxN + 1
            rxState := if i.rxData = Config.delim then .complete else .capturing }) := by
  unfold State.capture at h
  split at h
  · rename_i hc
    split at h
    · rename_i hn
      exact .inr (.inl ⟨hc.1, hc.2, hn, (Host.Outcome.next.inj h).symm⟩)
    · split at h
      · cases h
      · exact .inr (.inr ⟨hc.1, hc.2, by omega, (Host.Outcome.next.inj h).symm⟩)
  · rename_i hc
    exact .inl ⟨hc, (Host.Outcome.next.inj h).symm⟩

/-- Within the buffer the capture step always answers a next state. -/
theorem State.capture_completes {s : State} (i : Inputs) (h : s.rxN ≤ s.params.rxBufMax) :
    ∃ t, s.capture i = .next t := by
  unfold State.capture
  split
  · split
    · exact ⟨_, rfl⟩
    · rw [if_neg (by omega)]; exact ⟨_, rfl⟩
  · exact ⟨_, rfl⟩

/-- The capture step changes nothing but the response buffer's three parts. -/
theorem State.capture_frame {s t : State} {i : Inputs} (h : s.capture i = .next t) :
    t = { s with rxb := t.rxb, rxN := t.rxN, rxState := t.rxState } := by
  rcases State.capture_cases h with ⟨-, rfl⟩ | ⟨-, -, -, rfl⟩ | ⟨-, -, -, rfl⟩ <;> rfl

/-- A transfer counts one byte in send_idx, and only where one is offered and taken. -/
theorem State.transfer_cases (s : State) (i : Inputs) :
    (s.txValid = true ∧ i.txReady = true ∧ s.transfer i = { s with sendIdx := s.sendIdx + 1 })
    ∨ ((s.txValid && i.txReady) = false ∧ s.transfer i = s) := by
  unfold State.transfer
  cases s.txValid <;> cases i.txReady <;> simp

/-- The two deadlines end the poll, the outer one first, or nothing but the timers changes. -/
theorem State.deadlines_cases (s : State) (i : Inputs) :
    (s.outerDue i = true ∧ s.deadlines i = (s.countTicks i).endPoll .failPollTimeout)
    ∨ (s.outerDue i = false ∧ s.stepDue i = true ∧ s.deadlines i = (s.countTicks i).endPoll .failStepTimeout)
    ∨ (s.outerDue i = false ∧ s.stepDue i = false ∧ s.deadlines i = s.countTicks i) := by
  unfold State.deadlines
  cases s.outerDue i <;> cases s.stepDue i <;> simp

/-- The events of a SENDING period, in their order. -/
theorem State.sendingEvent_cases (s : State) (i : Inputs) (sent : Bool) :
    (i.txErr = true ∧ s.sendingEvent i sent = (s.countTicks i).endPoll .failTransportIo)
    ∨ (i.txErr = false ∧ sent = true ∧ i.txDrained = true
        ∧ s.sendingEvent i sent = (s.countTicks i).enterAwaiting)
    ∨ (i.txErr = false ∧ (sent && i.txDrained) = false ∧ s.sendingEvent i sent = s.deadlines i) := by
  unfold State.sendingEvent
  cases i.txErr <;> cases sent <;> cases i.txDrained <;> simp

/-- The events of an AWAITING period, in their order. -/
theorem State.awaitingEvent_cases (s : State) (i : Inputs) :
    (s.rxState = .complete ∧ s.awaitingEvent i = { s.countTicks i with fsm := .validating })
    ∨ (s.rxState ≠ .complete ∧ (s.rxState = .null ∨ i.rxErr = true)
        ∧ s.awaitingEvent i = { s.countTicks i with rxState := .null, fsm := .validating })
    ∨ (s.rxState = .capturing ∧ i.rxErr = false ∧ s.awaitingEvent i = s.deadlines i) := by
  unfold State.awaitingEvent
  cases s.rxState <;> cases i.rxErr <;> simp

/-- A validation ends the poll with the reading committed, or advances the cycle. -/
theorem validatingPeriod_cases {s t : State} {i : Inputs} (h : validatingPeriod i s = .next t) :
    ((validate s.params s.frame).reason = .valid
      ∧ t = ((((s.countPoll i).record (validate s.params s.frame)).commit s.captured).endPoll .ok))
    ∨ ((validate s.params s.frame).reason ≠ .valid ∧ ∃ hp : s.pos.val + 1 < 7,
        t = { (s.countPoll i).record (validate s.params s.frame) with
          pos := ⟨s.pos.val + 1, hp⟩, stepT := 0#16, fsm := .advance }) := by
  unfold validatingPeriod at h
  split at h
  · cases h
  · dsimp only at h
    split at h
    · rename_i hv
      exact .inl ⟨hv, (Host.Outcome.next.inj h).symm⟩
    · rename_i hv
      unfold State.advanceCycle at h
      split at h
      · rename_i hp
        exact .inr ⟨hv, hp, (Host.Outcome.next.inj h).symm⟩
      · cases h

/-- The end of the retry sleep exhausts the cycle or sends the next request. -/
theorem State.endSleep_cases (s : State) :
    (6 ≤ s.pos.val ∧ s.endSleep = State.endPoll { s with pos := 0 } .failCycleExhausted)
    ∨ (s.pos.val ≤ 5 ∧ s.endSleep = State.enterSending { s with attempts := s.attempts + 1#3 }) := by
  unfold State.endSleep
  by_cases h : 6 ≤ s.pos.val
  · exact .inl ⟨h, if_pos h⟩
  · exact .inr ⟨by omega, if_neg h⟩

/-- Every instruction answers a next state, in every state. -/
theorem exec_completes (i : Instr) (s : State) : ∃ t, exec i s = .next t := by
  cases i <;> exact ⟨_, rfl⟩

/-- A command word is never a register access. -/
theorem decodeCmd_ne_register (w : CmdWord) {a b : RegAddr} {d : Word} :
    decodeCmd w ≠ .regRd a ∧ decodeCmd w ≠ .regWr b d := by
  unfold decodeCmd
  split
  · split <;> simp
  · simp

/-- An instruction presented to a busy block that is no register access has no effect. -/
theorem exec_command_busy {w : CmdWord} {s : State} (h : s.fsm ≠ .idle) : exec (decode (.cmd w)) s = .next s := by
  show exec (decodeCmd w) s = .next s
  unfold decodeCmd
  split
  · split <;> exact congrArg Host.Outcome.next (State.whenAccepted_busy _ h)
  · exact congrArg Host.Outcome.next (State.whenAccepted_busy _ h)

/-- The register access of a busy block is a sample of reg_rdata, whether it reads or writes. -/
theorem registerPhase_busy {s : State} (i : Inputs) (h : s.fsm ≠ .idle) :
    registerPhase i s = .next (s.sampleReg i.regAddr) := by
  show exec (decodeReg i.regWe i.regAddr i.regWdata) s = _
  unfold decodeReg
  split
  · exact congrArg Host.Outcome.next (State.whenAccepted_busy _ (by simpa using h))
  · rfl

/-- The register access of an IDLE block samples reg_rdata and writes a budget if reg_we is 1. -/
theorem registerPhase_idle {s : State} (i : Inputs) (h : s.fsm = .idle) :
    registerPhase i s = .next
      (if i.regWe then (s.sampleReg i.regAddr).writeReg i.regAddr i.regWdata else s.sampleReg i.regAddr) := by
  show exec (decodeReg i.regWe i.regAddr i.regWdata) s = _
  unfold decodeReg
  split
  · exact congrArg Host.Outcome.next (State.whenAccepted_idle _ (by simpa using h))
  · rfl

end Sys2Proof.Machine
end

