-- ==== Sys2Proof/Laws/PerInstr.lean ====
section
/-! SUPPORT. A law of every instruction as syntax, one lemma per constructor. -/

namespace Sys2Proof.Laws.LegalWords

/-- A command other than ILLEGAL is encoded in a word that is not illegal, ILLEGAL in one that is (30_encoding.md R104); a
register access is encoded with reg_we telling the two apart (30_encoding.md R105). -/
def Statement (i : Instr) : Prop :=
  i.wellFormed = true →
    match encode i with
    | .cmd w => wordIsIllegal w = true ↔ ∃ v, i = .illegal v
    | .reg we _ _ => (we = true ↔ ∃ a d, i = .regWr a d) ∧ (we = false ↔ ∃ a, i = .regRd a)

/-- A word with RSV = 0 is illegal by its OP alone. -/
theorem word_legal {op : BitVec 4} (arg : Half) (h : (8#4 ≤ op) = False) : wordIsIllegal (cmdWordOf op arg) = false := by
  show (decide (8#4 ≤ cmdOp (cmdWordOf op arg)) || (cmdRsv (cmdWordOf op arg) != 0#4)) = false
  rw [cmdOp_cmdWordOf, cmdRsv_cmdWordOf]
  simp only [h]
  rfl

theorem nop : Statement .nop := fun _ => by simp [encode, word_legal]
theorem poll : Statement .poll := fun _ => by simp [encode, word_legal]
theorem lchkGen (v : BitVec 12) : Statement (.lchkGen v) := fun _ => by simp [encode, word_legal]
theorem lchkChk (f : Half) : Statement (.lchkChk f) := fun _ => by simp [encode, word_legal]
theorem fchkClr : Statement .fchkClr := fun _ => by simp [encode, word_legal]
theorem fchkAdd (b : Byte) : Statement (.fchkAdd b) := fun _ => by simp [encode, word_legal]
theorem fchkGet : Statement .fchkGet := fun _ => by simp [encode, word_legal]
theorem fchkChk (c : Half) : Statement (.fchkChk c) := fun _ => by simp [encode, word_legal]
theorem illegal (w : CmdWord) : Statement (.illegal w) := fun h => ⟨fun _ => ⟨w, rfl⟩, fun _ => h⟩
theorem regRd (a : RegAddr) : Statement (.regRd a) := fun _ => by simp [encode]
theorem regWr (a : RegAddr) (d : Word) : Statement (.regWr a d) := fun _ => by simp [encode]

end Sys2Proof.Laws.LegalWords
end

