-- ==== Sys2Proof/Laws/Period.lean ====
section
/-! SUPPORT. What one step is, by cases: a reset period, a period of a running poll, a period that begins in IDLE. -/

namespace Sys2Proof.Machine

/-- The state an IDLE period's command meets: resp_valid cleared, the register access done. -/
def State.afterPort (s : State) : State :=
  if s.input.regWe then (s.beginPeriod.sampleReg s.input.regAddr).writeReg s.input.regAddr s.input.regWdata
  else s.beginPeriod.sampleReg s.input.regAddr

/-- What a running poll's period begins with: resp_valid cleared, reg_rdata sampled. -/
def State.busyStart (s : State) : State := s.beginPeriod.sampleReg s.input.regAddr

theorem step_reset {s : State} (h : s.input.rst = true) :
    step s = .next ((s.sampleReg s.input.regAddr).resetBlock).endPeriod := by
  simp [step, clockPeriod, h, resetPeriod]

theorem step_busy {s : State} (hr : s.input.rst = false) (h : s.fsm ≠ .idle) :
    step s = andThen (acquire s.fsm s.input s.busyStart) fun t => .next t.endPeriod := by
  have hc : commandPhase s.input s.busyStart = .next s.busyStart := by
    unfold commandPhase
    split
    · exact exec_command_busy (by simpa [State.busyStart] using h)
    · rfl
  have hp : registerPhase s.input s.beginPeriod = .next s.busyStart := registerPhase_busy _ (by simpa using h)
  simp [step, clockPeriod, hr, runPeriod, hp, hc]

theorem step_idle {s : State} (hr : s.input.rst = false) (h : s.fsm = .idle) :
    step s = andThen (commandPhase s.input s.afterPort) fun t => .next t.endPeriod := by
  have hp : registerPhase s.input s.beginPeriod = .next s.afterPort := registerPhase_idle _ (by simpa using h)
  simp [step, clockPeriod, hr, runPeriod, hp, h, acquire]

/-- An IDLE period in which no command is presented. -/
theorem step_idle_quiet {s : State} (hr : s.input.rst = false) (h : s.fsm = .idle) (hv : s.input.cmdValid = false) :
    step s = .next s.afterPort.endPeriod := by
  simp [step_idle hr h, commandPhase, hv]

/-- An IDLE period in which a command is presented: it is executed after the register access. -/
theorem step_idle_command {s : State} (hr : s.input.rst = false) (h : s.fsm = .idle) (hv : s.input.cmdValid = true) :
    step s = andThen (exec (decodeCmd s.input.cmdWord) s.afterPort) fun t => .next t.endPeriod := by
  simp [step_idle hr h, commandPhase, hv, decode]

@[simp] theorem State.busyStart_input (s : State) : s.busyStart.input = s.input := rfl
@[simp] theorem State.busyStart_params (s : State) : s.busyStart.params = s.params := rfl
@[simp] theorem State.busyStart_toBlock (s : State) : s.busyStart.toBlock = { s.toBlock with respValid := false } := rfl

/-- The register access of an IDLE period changes nothing of the block but the budgets. -/
theorem State.afterPort_toBlock (s : State) :
    s.afterPort.toBlock = { s.toBlock with
      respValid := false
      stepBudget := s.afterPort.stepBudget
      pollBudget := s.afterPort.pollBudget } := by
  unfold State.afterPort State.writeReg
  split
  · split <;> [rfl; (split <;> rfl)]
  · rfl

@[simp] theorem State.afterPort_params (s : State) : s.afterPort.params = s.params := by
  unfold State.afterPort; split <;> simp
@[simp] theorem State.afterPort_input (s : State) : s.afterPort.input = s.input := by
  unfold State.afterPort; split <;> simp
@[simp] theorem State.afterPort_fsm (s : State) : s.afterPort.fsm = s.fsm := by rw [State.afterPort_toBlock]

/-- STEP_BUDGET never becomes 0 by a write. -/
theorem stepBudgetOf_ne_zero (w : Word) : stepBudgetOf w ≠ 0#16 := by
  unfold stepBudgetOf
  split
  · decide
  · assumption

theorem State.afterPort_stepBudget_ne_zero {s : State} (h : s.stepBudget ≠ 0#16) : s.afterPort.stepBudget ≠ 0#16 := by
  unfold State.afterPort
  split
  · simp only [State.writeReg_stepBudget]
    split
    · exact stepBudgetOf_ne_zero _
    · simpa using h
  · simpa using h

/-- What a command can do to an IDLE block: respond without touching anything but facc, which only FCHK.CLR and FCHK.ADD
write, or, POLL alone, start a poll. -/
theorem exec_command_idle {w : CmdWord} {s t : State} (hs : s.fsm = .idle) (h : exec (decodeCmd w) s = .next t) :
    (∃ c d a, (c = .ok ∨ c = .illegal) ∧ decodeCmd w ≠ .poll
        ∧ (a = s.facc ∨ decodeCmd w = .fchkClr ∨ ∃ b, decodeCmd w = .fchkAdd b)
        ∧ t = State.respond { s with facc := a } c d)
    ∨ (decodeCmd w = .poll ∧ t = s.startPoll s.input.linkOk) := by
  generalize hi : decodeCmd w = i at h ⊢
  have ht : ∀ f : State → State, Host.Outcome.next (s.whenAccepted f) = exec i s → t = f s := fun f hf =>
    (Host.Outcome.next.inj (hf.trans h)).symm.trans (State.whenAccepted_idle f hs)
  cases i with
  | nop => exact .inl ⟨_, _, s.facc, .inl rfl, by simp, .inl rfl, ht _ rfl⟩
  | poll => exact .inr ⟨rfl, ht _ rfl⟩
  | lchkGen v => exact .inl ⟨_, _, s.facc, .inl rfl, by simp, .inl rfl, ht _ rfl⟩
  | lchkChk f => exact .inl ⟨_, _, s.facc, .inl rfl, by simp, .inl rfl, ht _ rfl⟩
  | fchkClr => exact .inl ⟨_, _, _, .inl rfl, by simp, .inr (.inl rfl), ht _ rfl⟩
  | fchkAdd b => exact .inl ⟨_, _, _, .inl rfl, by simp, .inr (.inr ⟨b, rfl⟩), ht _ rfl⟩
  | fchkGet => exact .inl ⟨_, _, s.facc, .inl rfl, by simp, .inl rfl, ht _ rfl⟩
  | fchkChk c => exact .inl ⟨_, _, s.facc, .inl rfl, by simp, .inl rfl, ht _ rfl⟩
  | illegal v => exact .inl ⟨_, _, s.facc, .inr rfl, by simp, .inl rfl, ht _ rfl⟩
  | regRd a => exact absurd hi (decodeCmd_ne_register w (b := a) (d := 0#32)).1
  | regWr a d => exact absurd hi (decodeCmd_ne_register w (a := a)).2

/-- What the acceptance of POLL can do. -/
theorem State.startPoll_cases (s : State) (link : Bool) :
    (link = false ∧ s.startPoll link
        = State.endPoll { s with resValid := false, attempts := 0#3, pollT := 0#24 } .failConnection)
    ∨ (link = true ∧ 6 ≤ s.pos.val ∧ s.startPoll link
        = State.endPoll { s with resValid := false, attempts := 0#3, pollT := 0#24, pos := 0 } .failCycleExhausted)
    ∨ (link = true ∧ s.pos.val ≤ 5 ∧ s.startPoll link
        = State.enterSending { s with resValid := false, attempts := 1#3, pollT := 0#24 }) := by
  unfold State.startPoll
  cases link
  · exact .inl ⟨rfl, rfl⟩
  · by_cases h : 6 ≤ s.pos.val
    · exact .inr (.inl ⟨rfl, h, by simp [Config.cycleLen, h]⟩)
    · exact .inr (.inr ⟨rfl, by omega, by simp [Config.cycleLen, h]⟩)

/-- A step is a reset period, or a period that begins in IDLE, or a period of a running poll. -/
theorem step_cases {s t : State} (h : step s = .next t) :
    (s.input.rst = true ∧ t = ((s.sampleReg s.input.regAddr).resetBlock).endPeriod)
    ∨ (s.input.rst = false ∧ s.fsm = .idle ∧ ∃ u, commandPhase s.input s.afterPort = .next u ∧ t = u.endPeriod)
    ∨ (s.input.rst = false ∧ s.fsm ≠ .idle ∧ ∃ u, acquire s.fsm s.input s.busyStart = .next u ∧ t = u.endPeriod) := by
  cases hr : s.input.rst
  · by_cases hi : s.fsm = .idle
    · rw [step_idle hr hi, andThen_eq_next] at h
      obtain ⟨u, hu, ht⟩ := h
      exact .inr (.inl ⟨rfl, hi, u, hu, (Host.Outcome.next.inj ht).symm⟩)
    · rw [step_busy hr hi, andThen_eq_next] at h
      obtain ⟨u, hu, ht⟩ := h
      exact .inr (.inr ⟨rfl, hi, u, hu, (Host.Outcome.next.inj ht).symm⟩)
  · rw [step_reset hr] at h
    exact .inl ⟨rfl, (Host.Outcome.next.inj h).symm⟩

/-- A period that begins in SENDING, when it answers a next state. -/
theorem sendingPeriod_cases {s t : State} {i : Inputs} (h : sendingPeriod i s = .next t) :
    ∃ req u, s.request = some req ∧ s.capture i = .next u
      ∧ t = (u.transfer i).sendingEvent i (decide (s.sendIdx = req.length)) := by
  unfold sendingPeriod at h
  split at h
  · cases h
  · rename_i req hreq
    obtain ⟨u, hu, ht⟩ := andThen_eq_next.1 h
    exact ⟨req, u, hreq, hu, (Host.Outcome.next.inj ht).symm⟩

/-- A period that begins in AWAITING, when it answers a next state. -/
theorem awaitingPeriod_cases {s t : State} {i : Inputs} (h : awaitingPeriod i s = .next t) :
    ∃ u, s.capture i = .next u ∧ t = u.awaitingEvent i := by
  obtain ⟨u, hu, ht⟩ := andThen_eq_next.1 h
  exact ⟨u, hu, (Host.Outcome.next.inj ht).symm⟩

/-- A period that begins in ADVANCE: the outer deadline, the end of the sleep, or one more tick counted. -/
theorem advancePeriod_cases {s t : State} {i : Inputs} (h : advancePeriod i s = .next t) :
    (s.outerDue i = true ∧ t = (s.countTicks i).endPoll .failPollTimeout)
    ∨ (s.outerDue i = false ∧ s.stepDue i = true ∧ t = (s.countTicks i).endSleep)
    ∨ (s.outerDue i = false ∧ s.stepDue i = false ∧ t = s.countTicks i) := by
  have ht := (Host.Outcome.next.inj h).symm
  cases ho : s.outerDue i <;> cases hd : s.stepDue i <;> simp [ho, hd] at ht <;> simp [ht]

end Sys2Proof.Machine
end

