-- ==== Sys2Proof/Laws/Validation.lean ====
section
/-! SUPPORT. What the validator reads from a frame, in the terms of the statements: characters, hex digits, numbers. -/

namespace Sys2Proof.Machine

open Sys2Proof.Safety

theorem isHex_eq : ∀ b : Byte, isHex b = hexChar b := by decide

theorem hexVal_toNat : ∀ b : Byte, hexChar b = true → (hexVal b).toNat = digitValue b ∧ digitValue b < 16 := by decide

/-- A slice of a frame is the list of its characters. -/
theorem slice_eq_map {t : List Byte} (a : Nat) {b : Nat} (hb : b ≤ t.length) :
    slice t a b = (List.range' a (b - a)).map (charAt t) := by
  refine List.ext_getElem? fun i => ?_
  simp only [slice, List.getElem?_take, List.getElem?_drop, List.getElem?_map]
  by_cases h : i < b - a
  · have hl : a + i < t.length := by omega
    simp [h, charAt, List.getD, List.getElem?_eq_getElem hl]
  · simp [h]

theorem slice_all_isHex {t : List Byte} (a : Nat) {b : Nat} (hb : b ≤ t.length) :
    (slice t a b).all isHex = allHexChars t a b := by
  rw [slice_eq_map a hb, List.all_map, allHexChars]
  congr 1
  funext o
  exact isHex_eq _

theorem hexDigitsAt_eq {t : List Byte} {o : Nat} (h : o + 4 ≤ t.length) :
    hexDigitsAt t o = allHexChars t o (o + 4) := slice_all_isHex o h

/-- Four hex digits read as the number they write. -/
theorem hexAt_toNat {t : List Byte} {o : Nat} (h : ∀ x, o ≤ x → x < o + 4 → hexChar (charAt t x) = true) :
    (hexAt t o).toNat = numberAt t o := by
  obtain ⟨a1, a2⟩ := hexVal_toNat _ (h o (by omega) (by omega))
  obtain ⟨b1, b2⟩ := hexVal_toNat _ (h (o + 1) (by omega) (by omega))
  obtain ⟨c1, c2⟩ := hexVal_toNat _ (h (o + 2) (by omega) (by omega))
  obtain ⟨d1, d2⟩ := hexVal_toNat _ (h (o + 3) (by omega) (by omega))
  show (hex4 (charAt t o) (charAt t (o + 1)) (charAt t (o + 2)) (charAt t (o + 3))).toNat = _
  simp only [hex4, numberAt, BitVec.toNat_add, BitVec.toNat_mul, BitVec.toNat_setWidth, a1, b1, c1, d1,
    BitVec.toNat_ofNat]
  omega

theorem allHexChars_iff {t : List Byte} {lo hi : Nat} :
    allHexChars t lo hi = true ↔ ∀ x, lo ≤ x → x < hi → hexChar (charAt t x) = true := by
  simp only [allHexChars, List.all_eq_true, List.mem_range'_1]
  exact ⟨fun h x h1 h2 => h x ⟨h1, by omega⟩, fun h x hx => h x hx.1 (by omega)⟩

theorem hasNonAscii_eq (t : List Byte) :
    hasNonAscii t = (List.range (t.length - 1)).any fun o => decide (0x80 ≤ (charAt t o).toNat) := by
  have h : t.take (t.length - 1) = (List.range (t.length - 1)).map (charAt t) := by
    refine List.ext_getElem? fun i => ?_
    simp only [List.getElem?_take, List.getElem?_map]
    by_cases h : i < t.length - 1
    · have hl : i < t.length := by omega
      simp [h, charAt, List.getD, List.getElem?_eq_getElem hl]
    · simp [h]
  rw [hasNonAscii, h, List.any_map]
  rfl

theorem cid2Of_toNat (t : List Byte) : (cid2Of t).toNat = (charAt t 7).toNat * 256 + (charAt t 8).toNat := by
  have h := toNat_concat (byteAt t 7) (byteAt t 8) rfl
  rwa [BitVec.cast_eq] at h

/-- The computed checksum negates the byte sum of the span. -/
theorem calcOf_toNat (t : List Byte) :
    (calcOf t).toNat = negated16 (byteTotal ((t.drop 1).take (t.length - 6))) := by
  rw [calcOf, frameChecksum, complementSum_toNat, byteSum_toNat, slice, show t.length - 5 - 1 = t.length - 6 by omega]
  rfl

theorem topNibble_lt (v : Nat) : topNibble v < 16 := by unfold topNibble; omega

theorem lenOk_eq (f : Half) : lenOk f = decide (f.toNat / 4096 = topNibble (f.toNat % 4096)) := by
  have h : (lengthChecksum (f.extractLsb' 0 12)).toNat = topNibble (f.toNat % 4096) * 4096 + f.toNat % 4096 := by
    rw [lengthChecksum_toNat]
    simp only [BitVec.extractLsb'_toNat, Nat.shiftRight_zero, topNibble]
    omega
  have hf := f.isLt
  have ht := topNibble_lt (f.toNat % 4096)
  rw [lenOk, decide_eq_decide, ← BitVec.toNat_inj, h]
  omega

theorem windowsHex_eq {t : List Byte} (h : 146 ≤ t.length) :
    windowsHex t = (allHexChars t 15 23 && allHexChars t 25 101 && allHexChars t 103 123 && allHexChars t 127 131
      && allHexChars t 137 141) := by
  simp only [windowsHex, windows, List.all_cons, List.all_nil]
  rw [slice_all_isHex _ (by omega), slice_all_isHex _ (by omega), slice_all_isHex _ (by omega),
    slice_all_isHex _ (by omega), slice_all_isHex _ (by omega)]
  simp [Bool.and_assoc]

end Sys2Proof.Machine
end

