-- ==== Sys2Proof/Tests/Slice0.lean ====
section
/-! SUPPORT. Tests of the model against the spec's own vectors (95_test_vectors.md), and for every statement with hypotheses
a witness: a concrete state and operands that meet them together. -/

namespace Sys2Proof.Tests

open Sys2Proof.Machine Sys2Proof.Safety

/-! Helpers: what a result shows, small states, the frames of 95_test_vectors.md §0.4 -/

/-- What f reads from the next state, if there is one. -/
def shown {α : Type} (r : Result) (f : State → α) : Option α :=
  match r with
  | .next s => some (f s)
  | .fault _ => none
  | .refused _ => none

theorem next_of_shown {r : Result} {f : State → Bool} (h : shown r f = some true) : ∃ t, r = .next t ∧ f t = true := by
  cases r <;> simp_all [shown]

/-- The n bytes of a number, the first most significant. -/
def bytesOf (n v : Nat) : List Byte := (List.range n).map fun k => BitVec.ofNat 8 (v / 256 ^ (n - 1 - k))

/-- RXB holding a frame that has no byte 0x00. -/
def stored (t : List Byte) : Memory := t.zipIdx.map fun c => (c.2, c.1)

/-- The reset state with the vectors' parameters, and a period with the input vector i before it. -/
def idleState : State := State.resetWith Params.vectors
def withInput (s : State) (i : Inputs) : State := { s with script := [i] }
def quietIdle : State := withInput idleState quietInputs

/-- The states of a first attempt. -/
def sendingState : State := withInput { idleState with fsm := .sending, attempts := 1#3 } quietInputs
def awaitingState : State := withInput { idleState with fsm := .awaiting, attempts := 1#3, sendIdx := 2 } quietInputs
def advanceState : State := withInput { idleState with fsm := .advance, attempts := 1#3, pos := 1 } quietInputs
def validatingState (t : List Byte) : State :=
  withInput { idleState with
    fsm := .validating, attempts := 1#3, rxb := stored t, rxN := t.length, rxState := .complete } quietInputs
def nullState : State :=
  withInput { idleState with fsm := .validating, attempts := 1#3, rxState := .null } quietInputs

/-- V0, the valid frame. -/
def frameV0 : List Byte :=
  bytesOf 50 0x7E32303031343630303830383030303146343032373130303030434534304345353043453630434537304345383043453930
    ++ bytesOf 50 0x4345413043454230434543304345443043454530434546304346303043463130434632304346333030464130313034303130
    ++ bytesOf 46 0x4530303030433830304432303044433030453638303030303030303030363430303030303032373130453138370D

/-- F02: CID2 02, its checksum E185. -/
def frameF02 : List Byte := (frameV0.set 8 0x32#8).set 144 0x35#8

/-- E0, the empty body. -/
def frameE0 : List Byte := bytesOf 18 0x7E323030313436303030303030464442330D

/-! Well-formedness: its one check refuses a legal word, and a word is illegal by OP or by RSV -/

theorem test_wellFormed_refuses_legal_word : (Instr.illegal 0x000000#24).wellFormed = false := by decide
theorem test_wellFormed_accepts_illegal_words :
    [0x800000#24, 0xF00000#24, 0x110000#24, 0x7F0000#24].all (fun w => (Instr.illegal w).wellFormed) = true := by decide

/-! Decoding: one word per constructor, from 95_test_vectors.md §2.2 and 30_encoding.md R105 -/

theorem test_decode_nop : decodeTableWord 24 0x00ABCD = some .nop := by decide
theorem test_decode_poll : decodeTableWord 24 0x100000 = some .poll := by decide
theorem test_decode_lchkGen : decodeTableWord 24 0x20F076 = some (.lchkGen 0x076#12) := by decide
theorem test_decode_lchkChk : decodeTableWord 24 0x303076 = some (.lchkChk 0x3076#16) := by decide
theorem test_decode_fchkClr : decodeTableWord 24 0x400000 = some .fchkClr := by decide
theorem test_decode_fchkAdd : decodeTableWord 24 0x5001FF = some (.fchkAdd 0xFF#8) := by decide
theorem test_decode_fchkGet : decodeTableWord 24 0x600000 = some .fchkGet := by decide
theorem test_decode_fchkChk : decodeTableWord 24 0x70FFBF = some (.fchkChk 0xFFBF#16) := by decide
theorem test_decode_illegal : decodeTableWord 24 0x7F0000 = some (.illegal 0x7F0000#24) := by decide
theorem test_decode_regRd : decodeTableWord 8 0x14 = some (.regRd 0x14#6) := by decide
theorem test_decode_regWr : decode (.reg true 0x01#6 0x12345678#32) = .regWr 0x01#6 0x12345678#32 := by decide

/-! The commands: 95_test_vectors.md §2.1, §2.6, §2.7 -/

theorem test_nop : shown (exec .nop idleState) (fun t => (t.respValid, t.respCode, t.respData))
    = some (true, .ok, 0x0000#16) := by decide
theorem test_illegal : shown (exec (.illegal 0x110000#24) idleState) (fun t => (t.respValid, t.respCode, t.respData))
    = some (true, .illegal, 0x0000#16) := by decide
theorem test_lchkGen : [0x000#12, 0x001#12, 0x076#12, 0x088#12, 0x123#12, 0xFFF#12].map
    (fun v => shown (exec (.lchkGen v) idleState) (·.respData))
    = [0x0000#16, 0xF001#16, 0x3076#16, 0x0088#16, 0xA123#16, 0x3FFF#16].map some := by decide
theorem test_lchkChk : [0x1000#16, 0x3076#16, 0x2076#16, 0x0088#16, 0xFFFF#16].map
    (fun f => shown (exec (.lchkChk f) idleState) (·.respData))
    = [0x0000#16, 0x0001#16, 0x0000#16, 0x0001#16, 0x0000#16].map some := by decide
theorem test_fchkAdd_wraps : shown (exec (.fchkAdd 0x01#8) { idleState with facc := 0xFFFF#16 }) (·.facc)
    = some 0x0000#16 := by decide
theorem test_fchkClr : shown (exec .fchkClr { idleState with facc := 0xFFFF#16 }) (·.facc) = some 0x0000#16 := by decide
theorem test_fchkGet : shown (exec .fchkGet { idleState with facc := 0x02D6#16 }) (·.respData) = some 0xFD2A#16 := by decide
theorem test_fchkChk : [0xFD2A#16, 0xFD2B#16].map
    (fun c => shown (exec (.fchkChk c) { idleState with facc := 0x02D6#16 }) (·.respData))
    = [some 0x0001#16, some 0x0000#16] := by decide
theorem test_fchkChk_zero : shown (exec (.fchkChk 0x0000#16) idleState) (·.respData) = some 0x0001#16 := by decide
theorem test_regRd_status : shown (exec (.regRd 0x00#6) idleState) (·.regRdata) = some 0x000FFF00#32 := by decide
theorem test_regRd_current : shown (exec (.regRd 0x12#6) { idleState with res := { Reading.zero with cur := 0x8000#16 } })
    (·.regRdata) = some 0xFFFF8000#32 := by decide
theorem test_regWr_stepBudget : [0x00000000#32, 0x12345678#32].map
    (fun w => shown (exec (.regWr 0x01#6 w) idleState) (·.stepBudget)) = [some 0x0001#16, some 0x5678#16] := by decide
theorem test_regWr_pollBudget : shown (exec (.regWr 0x02#6 0xFFFFFFFF#32) idleState) (fun t => (t.pollBudget, t.regRdata))
    = some (0xFFFFFF#24, 0#32) := by decide
theorem test_poll_link_down : shown (exec .poll (withInput { idleState with pos := 6 } { quietInputs with linkOk := false }))
    (fun t => (t.respCode, t.respData, t.pos, t.fsm)) = some (.failConnection, 0#16, 6, .idle) := by decide
theorem test_poll_exhausted : shown (exec .poll (withInput { idleState with pos := 6 } quietInputs))
    (fun t => (t.respCode, t.respData, t.pos, t.fsm)) = some (.failCycleExhausted, 0#16, 0, .idle) := by decide

/-- log 16: the first step after reset runs the instruction placed, whatever the parameters are. -/
theorem test_fetch_word_runs_first :
    [0x000000, 0x100000, 0x200076, 0x303076, 0x400000, 0x500041, 0x600000, 0x70FFBF, 0x800000].map
      (fun w => shown (step (State.reset.withFetchWord 24 w)) (fun t => (t.fsm, t.respCode, t.respData)))
    = [(.idle, .ok, 0#16), (.sending, .ok, 0#16), (.idle, .ok, 0x3076#16), (.idle, .ok, 1#16), (.idle, .ok, 0#16),
      (.idle, .ok, 0#16), (.idle, .ok, 0#16), (.idle, .ok, 0#16), (.idle, .illegal, 0#16)].map some := by rfl

/-! One period: 95_test_vectors.md §2.6 -/

/-- Q1: a write error beats the drain and the timeout. -/
theorem test_period_tx_error :
    shown (step (withInput { sendingState with sendIdx := 2, stepT := 2#16 }
      { quietInputs with tick := true, txDrained := true, txErr := true }))
      (fun t => (t.fsm, t.respCode, t.respData)) = some (.idle, .failTransportIo, 1#16) := by decide
/-- Q2: the drain beats the timeout. -/
theorem test_period_drained :
    shown (step (withInput { sendingState with sendIdx := 2, stepT := 2#16 }
      { quietInputs with tick := true, txDrained := true }))
      (fun t => (t.fsm, t.stepT, t.pollT)) = some (.awaiting, 0#16, 1#24) := by decide
/-- Q3 -/
theorem test_period_step_timeout :
    shown (step (withInput { sendingState with sendIdx := 2, stepT := 2#16 } { quietInputs with tick := true }))
      (fun t => (t.respCode, t.respData)) = some (.failStepTimeout, 1#16) := by decide
/-- Q4: the delimiter beats the timeout. -/
theorem test_period_frame_complete :
    shown (step (withInput { awaitingState with stepT := 2#16 }
      { quietInputs with tick := true, rxValid := true, rxData := 0x0D#8 }))
      (fun t => (t.fsm, t.stepT, t.rxN)) = some (.validating, 3#16, 1) := by decide
/-- Q5: the null response beats the outer deadline. -/
theorem test_period_rx_error :
    shown (step (withInput { awaitingState with pollBudget := 1#24 } { quietInputs with tick := true, rxErr := true }))
      (fun t => (t.fsm, t.rxState, t.pollT)) = some (.validating, .null, 1#24) := by decide
/-- Q6: the outer deadline beats the retry and keeps pos. -/
theorem test_period_outer_deadline :
    shown (step (withInput { advanceState with pollBudget := 3#24, pollT := 2#24, stepT := 2#16 }
      { quietInputs with tick := true }))
      (fun t => (t.respCode, t.pos, t.fsm)) = some (.failPollTimeout, 1, .idle) := by decide
/-- T2: the byte for a full buffer makes the response null. -/
theorem test_period_overflow :
    shown (step (withInput { awaitingState with rxN := 4113 } { quietInputs with rxValid := true, rxData := 0x30#8 }))
      (fun t => (t.fsm, t.rxState, t.rxN)) = some (.validating, .null, 4113) := by decide

/-! Validation and decoding: 95_test_vectors.md §2.3, §2.4 -/

/-- What the kernel evaluates on whole frames, in one go; the theorems after it are its parts. -/
theorem frame_facts :
    ([frameV0, frameF02, frameE0].map (fun t => validate Params.vectors (some t))
      = [⟨.valid, .ok, ⟨146#16, 0x3030#16, 0x8080#16, true, 0xE187#16, true, 0xE187#16, true⟩⟩,
        ⟨.statusNotOk, .checksum, ⟨146#16, 0x3032#16, 0#16, false, 0#16, false, 0#16, false⟩⟩,
        ⟨.bodyShort, .ok, ⟨18#16, 0x3030#16, 0x0000#16, true, 0xFDB3#16, true, 0xFDB3#16, true⟩⟩])
    ∧ ([frameV0.set 33 0x80#8, [0x0D#8], frameF02, frameV0.set 9 0x47#8, (frameV0.set 9 0x30#8).set 144 0x39#8,
        frameV0.set 141 0x5A#8, frameV0.set 144 0x38#8, frameE0, frameV0.set 141 0x65#8].map
        (fun t => (validate Params.vectors (some t)).reason)
      = [.nonAscii, .tooShort, .statusNotOk, .lenidFormat, .lenidChecksum, .fchkFormat, .fchkMismatch, .bodyShort, .valid])
    ∧ ((fun r : Reading => (r.soc, r.volt, r.cur, r.soh, r.energy, r.tcell, r.cell[0], r.cell[15], r.taux[3]))
        (readingOf frameV0) = (0x1F40#16, 0x2710#16, 0x8000#16, 0x0064#16, 0x05F5E100#32, 0x0104#16, 0x0CE4#16, 0x0CF3#16,
          230#16))
    ∧ shown (step (validatingState frameV0))
        (fun t => (t.respCode, t.respData, t.readReg 0x00#6, t.readReg 0x14#6))
        = some (.ok, 1#16, 0x00000080#32, 0x05F5E100#32)
    ∧ shown (step (validatingState frameV0))
        (fun t => t.res != (validatingState frameV0).res && t.resValid && !(validatingState frameV0).resValid) = some true
    ∧ ((validatingState frameV0).frame = some frameV0
      ∧ (validatingState frameV0).rxN ≤ (validatingState frameV0).params.rxBufMax)
    ∧ ((validatingState frameF02).frame = some frameF02
      ∧ (validatingState frameF02).rxN ≤ (validatingState frameF02).params.rxBufMax)
    ∧ (charAt frameF02 7).toNat * 256 + (charAt frameF02 8).toNat ≠ (validatingState frameF02).params.okCode.toNat
    ∧ byteTotal (List.replicate 516 0x7F#8 ++ [0x04#8]) % 65536 = 0
    ∧ builtFrame Params.vectors 0x7E#8 (slice frameV0 1 7) (slice frameV0 13 141) = frameV0 := by decide +kernel

/-- V1, V6 and V16, with every diagnostic. -/
theorem test_validate : [frameV0, frameF02, frameE0].map (fun t => validate Params.vectors (some t))
    = [⟨.valid, .ok, ⟨146#16, 0x3030#16, 0x8080#16, true, 0xE187#16, true, 0xE187#16, true⟩⟩,
      ⟨.statusNotOk, .checksum, ⟨146#16, 0x3032#16, 0#16, false, 0#16, false, 0#16, false⟩⟩,
      ⟨.bodyShort, .ok, ⟨18#16, 0x3030#16, 0x0000#16, true, 0xFDB3#16, true, 0xFDB3#16, true⟩⟩] := frame_facts.1
/-- V3, V5, V6, V12, a wrong LENID, V14 with one letter, V15, V16, V22 with one letter. -/
theorem test_reasons : [frameV0.set 33 0x80#8, [0x0D#8], frameF02, frameV0.set 9 0x47#8,
      (frameV0.set 9 0x30#8).set 144 0x39#8, frameV0.set 141 0x5A#8, frameV0.set 144 0x38#8, frameE0,
      frameV0.set 141 0x65#8].map (fun t => (validate Params.vectors (some t)).reason)
    = [.nonAscii, .tooShort, .statusNotOk, .lenidFormat, .lenidChecksum, .fchkFormat, .fchkMismatch, .bodyShort, .valid] :=
  frame_facts.2.1
theorem test_reading_V0 :
    (fun r : Reading => (r.soc, r.volt, r.cur, r.soh, r.energy, r.tcell, r.cell[0], r.cell[15], r.taux[3]))
      (readingOf frameV0) = (0x1F40#16, 0x2710#16, 0x8000#16, 0x0064#16, 0x05F5E100#32, 0x0104#16, 0x0CE4#16, 0x0CF3#16,
        230#16) := frame_facts.2.2.1
/-- V0 is the frame that the two codec functions build. -/
theorem test_builtFrame_V0 : builtFrame Params.vectors 0x7E#8 (slice frameV0 1 7) (slice frameV0 13 141) = frameV0 :=
  frame_facts.2.2.2.2.2.2.2.2.2
/-- P2: the last period of the poll. -/
theorem test_period_success :
    shown (step (validatingState frameV0)) (fun t => (t.respCode, t.respData, t.readReg 0x00#6, t.readReg 0x14#6))
      = some (.ok, 1#16, 0x00000080#32, 0x05F5E100#32) := frame_facts.2.2.2.1

/-! Witnesses: commands and register accesses. idleState meets every hypothesis of a command's statement; the words are
boundary values of the clauses about decoding. -/

theorem witness_NopRespondsOk : idleState.fsm = .idle := rfl
theorem witness_IllegalWordRespondsIllegal :
    idleState.fsm = .idle
    ∧ [0x800000#24, 0xF00000#24, 0xFFFFFF#24, 0x010000#24, 0x7F0000#24].all
        (fun w => decide (8 ≤ w.toNat / 2 ^ 20 ∨ w.toNat / 2 ^ 16 % 16 ≠ 0)) = true := by decide
theorem witness_LchkGenRespondsLenidWord : idleState.fsm = .idle := rfl
theorem witness_LchkChkTestsLenidWord : idleState.fsm = .idle := rfl
theorem witness_FchkClrClearsAccumulator : idleState.fsm = .idle := rfl
theorem witness_FchkAddAddsCharacter : idleState.fsm = .idle := rfl
theorem witness_FchkGetRespondsFrameChecksum : idleState.fsm = .idle := rfl
theorem witness_FchkChkComparesChecksum : idleState.fsm = .idle := rfl
theorem witness_PollWithoutConnectionFails :
    (withInput idleState { quietInputs with linkOk := false }).fsm = .idle
    ∧ (withInput idleState { quietInputs with linkOk := false }).input.linkOk = false := by decide
theorem witness_PollPastLastPositionReportsExhausted :
    (withInput { idleState with pos := 6 } quietInputs).fsm = .idle
    ∧ (withInput { idleState with pos := 6 } quietInputs).input.linkOk = true
    ∧ 6 ≤ (withInput { idleState with pos := 6 } quietInputs).pos.val := by decide
theorem witness_PollEntersSending :
    (withInput { idleState with pos := 5 } quietInputs).fsm = .idle
    ∧ (withInput { idleState with pos := 5 } quietInputs).input.linkOk = true
    ∧ (withInput { idleState with pos := 5 } quietInputs).pos.val ≤ 5 := by decide
theorem witness_RegisterMapReads : [0x0D#6, 0x0F#6, 0x2C#6, 0x3F#6].all
    (fun a => decide (0x0D ≤ a.toNat ∧ a.toNat ≤ 0x0F ∨ 0x2C ≤ a.toNat)) = true := by decide
theorem witness_RegisterWriteStoresBudgets : idleState.fsm = .idle ∧ sendingState.fsm ≠ .idle := by decide
/-- R304: the addresses beside the budgets store nothing, nor does any address outside IDLE. -/
theorem test_regWr_neighbours :
    [0x00#6, 0x03#6].map (fun a => shown (exec (.regWr a 0xFFFFFFFF#32) idleState) (·.toBlock))
      = [some idleState.toBlock, some idleState.toBlock]
    ∧ [0x00#6, 0x01#6, 0x02#6, 0x03#6].all
      (fun a => shown (exec (.regWr a 0xFFFFFFFF#32) sendingState) (·.toBlock) == some sendingState.toBlock) = true := by
  decide
theorem witness_BusyBlockIgnoresCommandPort :
    sendingState.fsm ≠ .idle ∧ sendingState.script = quietInputs :: [] := by decide

/-- A period that presents POLL and a register write together. -/
def pollAndWrite (a : RegAddr) : State :=
  withInput { idleState with pos := 5 }
    { presenting (.cmd 0x10FFFF#24) with regWe := true, regAddr := a, regWdata := 0x00010000#32 }
theorem witness_WriteWithPollIsTaken : ∀ a ∈ [0x00#6, 0x01#6, 0x02#6, 0x03#6],
    (pollAndWrite a).fsm = .idle ∧ (pollAndWrite a).input.rst = false ∧ (pollAndWrite a).input.cmdValid = true
    ∧ (pollAndWrite a).input.cmdWord = 0x1#4 ++ 0x0#4 ++ 0xFFFF#16 ∧ (pollAndWrite a).input.linkOk = true
    ∧ (pollAndWrite a).pos.val ≤ 5 ∧ (pollAndWrite a).input.regWe = true := by decide

/-! Witnesses: the step -/

theorem witness_StepRunsDecodedInstructions :
    sendingState.input.rst = false
    ∧ (withInput idleState (presenting (.cmd 0x100000#24))).input.rst = false
    ∧ (withInput idleState (presenting (.cmd 0x100000#24))).fsm = .idle
    ∧ (withInput idleState (presenting (.cmd 0x100000#24))).input.cmdValid = true := by decide
theorem witness_FetchWordRunsFirst :
    decodeTableWord 24 0x70FFBF = some (.fchkChk 0xFFBF#16) ∧ decodeTableWord 8 0x14 = some (.regRd 0x14#6)
    ∧ decodeTableWord 32 0x12345641 = some (.regWr 0x01#6 0x12345641#32) := by decide
theorem witness_ResetFromAnyState : (withInput sendingState { quietInputs with rst := true }).input.rst = true := by decide
theorem witness_IdlePeriodHolds :
    quietIdle.fsm = .idle ∧ quietIdle.input.rst = false ∧ quietIdle.input.cmdValid = false
    ∧ quietIdle.input.regWe = false := by decide

/-! Witnesses: encoding and the codec -/

theorem witness_DecodeEncodeRoundTrip :
    (Instr.illegal 0x7F0000#24).wellFormed = true ∧ (Instr.lchkGen 0xFFF#12).wellFormed = true
    ∧ (Instr.fchkAdd 0xFF#8).wellFormed = true ∧ (Instr.regWr 0x3F#6 0xFFFFFFFF#32).wellFormed = true := by decide
theorem witness_EveryWordIsCommandOrIllegal :
    [0x00FFFF#24, 0x10FFFF#24, 0x20FFFF#24, 0x30FFFF#24, 0x40FFFF#24, 0x50FFFF#24, 0x60FFFF#24, 0x70FFFF#24].map
      (fun w => w.toNat / 2 ^ 16) = [0x00, 0x10, 0x20, 0x30, 0x40, 0x50, 0x60, 0x70]
    ∧ idleState.fsm = .idle ∧ (decodeCmd 0x110000#24 = .illegal 0x110000#24 ∧ decodeCmd 0x10FFFF#24 = .poll) := by decide
theorem witness_FrameChecksumIgnoresOrder :
    [0x41#8, 0x7E#8].Perm [0x7E#8, 0x41#8] ∧ byteTotal (List.replicate 516 0x7F#8 ++ [0x04#8]) % 65536 = 0 :=
  ⟨.swap _ _ _, frame_facts.2.2.2.2.2.2.2.2.1⟩
theorem witness_LengthChecksumRoundTrip : lenOk (0x3#4 ++ 0x076#12) = true ∧ lenOk (0x0#4 ++ 0x088#12) = true := by decide
theorem witness_HexDigitsReadBigEndian :
    [0x30#8, 0x39#8, 0x41#8, 0x46#8, 0x61#8, 0x66#8].all hexChar = true := by decide

/-! Witnesses: validation and the decoder. Each clause of the diagnostics has a frame that reaches it. -/

theorem witness_DiagnosticsOfValidation :
    ([frameV0.set 33 0x80#8, [0x0D#8], frameF02, frameV0.set 9 0x47#8, (frameV0.set 9 0x30#8).set 144 0x39#8,
        frameV0.set 141 0x5A#8, frameV0.set 144 0x38#8, frameE0, frameV0.set 141 0x65#8].map
        (fun t => (validate Params.vectors (some t)).reason)
      = [.nonAscii, .tooShort, .statusNotOk, .lenidFormat, .lenidChecksum, .fchkFormat, .fchkMismatch, .bodyShort, .valid])
    ∧ (∀ k c, (frameV0.set k c).length ≤ 65535)
    ∧ (nullState.fsm = .validating ∧ nullState.input.rst = false
      ∧ ∃ t, step nullState = .next t ∧ (t.fsm == .advance) = true)
    ∧ Params.vectors.legal = true ∧ Params.vectors.okCode = 0x3030#16
    ∧ (0x3032#16, StatusClass.checksum) ∈ Params.vectors.statusClass
    ∧ (0x3939#16 ≠ Params.vectors.okCode ∧ ∀ c, (0x3939#16, c) ∉ Params.vectors.statusClass) :=
  ⟨frame_facts.2.1, fun k c => by simp [frameV0, bytesOf], ⟨rfl, rfl, next_of_shown (by decide)⟩, by decide, rfl, by decide,
    by decide, fun c => by simp [Params.vectors]⟩
theorem witness_ValidFrameHas146Bytes : (validate Params.vectors (some frameV0)).reason = .valid :=
  congrArg Verdict.reason (List.cons.inj frame_facts.1).1
theorem witness_BuiltFrameIsValid :
    Params.vectors.legal = true ∧ (0x7E#8).toNat < 0x80 ∧ (List.replicate 6 0x30#8).length = 6
    ∧ (∀ b ∈ List.replicate 6 0x30#8, b.toNat < 0x80) ∧ (∀ b ∈ List.replicate 128 0x30#8, b.toNat < 0x80)
    ∧ 128 ≤ (List.replicate 128 0x30#8).length ∧ (List.replicate 128 0x30#8).length ≤ 4095
    ∧ (∀ o, inWindow o → hexChar (charAt (List.replicate 128 0x30#8) o) = true) := by
  refine ⟨by decide, by decide, by decide, by decide, ?_, by simp, by simp, fun o h => ?_⟩
  · intro b hb
    rw [List.eq_of_mem_replicate hb]
    decide
  · have ho : o < 128 := by unfold inWindow at h; omega
    have hc : charAt (List.replicate 128 0x30#8) o = 0x30#8 := by
      rw [charAt, List.getD_eq_getElem?_getD, List.getElem?_replicate_of_lt ho]
      rfl
    rw [hc]
    decide
theorem witness_NonOkStatusNeverReachesDecoder :
    (validatingState frameF02).fsm = .validating ∧ (validatingState frameF02).input.rst = false
    ∧ (validatingState frameF02).frame = some frameF02
    ∧ (validatingState frameF02).rxN ≤ (validatingState frameF02).params.rxBufMax ∧ (validatingState frameF02).pos.val ≤ 5
    ∧ (charAt frameF02 7).toNat * 256 + (charAt frameF02 8).toNat ≠ (validatingState frameF02).params.okCode.toNat :=
  have h := frame_facts.2.2.2.2.2.2
  ⟨rfl, rfl, h.1.1, h.1.2, Nat.zero_le 5, h.2.1⟩
theorem witness_StatusClassAffectsNoControlFlow : ∃ t, step nullState = .next t ∧ (t.fsm == .advance) = true :=
  next_of_shown (by decide)
theorem witness_SuccessCommitsReading :
    (validatingState frameV0).fsm = .validating ∧ (validatingState frameV0).input.rst = false
    ∧ (validatingState frameV0).frame = some frameV0
    ∧ (validatingState frameV0).rxN ≤ (validatingState frameV0).params.rxBufMax
    ∧ (validate (validatingState frameV0).params (some frameV0)).reason = .valid :=
  have h := frame_facts.2.2.2.2.2.1
  ⟨rfl, rfl, h.1, h.2, witness_ValidFrameHas146Bytes⟩
theorem witness_CharactersOutsideWindowsDoNotMatter :
    ∀ o, inWindow o → charAt frameV0 (13 + o) = charAt (frameV0.set 13 0x5A#8) (13 + o) := by
  intro o h
  have ho : (13 : Nat) ≠ 13 + o := by unfold inWindow at h; omega
  simp only [charAt, List.getD, List.getElem?_set_ne ho]

/-! Witnesses: the periods of a poll. The common hypotheses first, then a state for each branch of the events. -/

theorem witness_SendingPeriodEvents :
    (sendingState.fsm = .sending ∧ sendingState.input.rst = false ∧ sendingState.request = some [0x53#8, 0x0D#8]
      ∧ sendingState.rxN ≤ sendingState.params.rxBufMax)
    ∧ (withInput sendingState { quietInputs with txErr := true }).input.txErr = true
    ∧ { sendingState with sendIdx := 2 }.sendIdx = [0x53#8, 0x0D#8].length
    ∧ (withInput sendingState { quietInputs with txDrained := true }).input.txDrained = true
    ∧ outerDeadline (withInput { sendingState with pollBudget := 1#24 } { quietInputs with tick := true })
    ∧ stepDeadline (withInput { sendingState with stepT := 2#16 } { quietInputs with tick := true })
    ∧ ¬outerDeadline sendingState ∧ ¬stepDeadline sendingState := by decide
theorem witness_AwaitingPeriodEvents :
    (awaitingState.fsm = .awaiting ∧ awaitingState.input.rst = false
      ∧ awaitingState.rxN ≤ awaitingState.params.rxBufMax)
    ∧ frameComplete (withInput awaitingState { quietInputs with rxValid := true, rxData := 0x0D#8 })
    ∧ responseNull (withInput { awaitingState with rxN := 4113 } { quietInputs with rxValid := true })
    ∧ (withInput awaitingState { quietInputs with rxErr := true }).input.rxErr = true
    ∧ outerDeadline (withInput { awaitingState with pollBudget := 1#24 } { quietInputs with tick := true })
    ∧ stepDeadline (withInput { awaitingState with stepT := 2#16 } { quietInputs with tick := true })
    ∧ ¬frameComplete awaitingState ∧ ¬responseNull awaitingState ∧ ¬outerDeadline awaitingState
    ∧ ¬stepDeadline awaitingState := by decide
theorem witness_FrameInvalidAdvancesCycle :
    { nullState with pos := 5 }.fsm = .validating ∧ { nullState with pos := 5 }.input.rst = false
    ∧ { nullState with pos := 5 }.pos.val ≤ 5
    ∧ { nullState with pos := 5 }.rxN ≤ { nullState with pos := 5 }.params.rxBufMax
    ∧ (validate { nullState with pos := 5 }.params { nullState with pos := 5 }.frame).reason ≠ .valid := by decide
theorem witness_AdvancePeriodEvents :
    (advanceState.fsm = .advance ∧ advanceState.input.rst = false)
    ∧ outerDeadline (withInput { advanceState with pollBudget := 1#24 } { quietInputs with tick := true })
    ∧ (∀ p ∈ [(1 : Fin 7), 5, 6],
        stepDeadline (withInput { advanceState with stepT := 2#16, pos := p } { quietInputs with tick := true })
        ∧ ¬outerDeadline (withInput { advanceState with stepT := 2#16, pos := p } { quietInputs with tick := true }))
    ∧ ¬outerDeadline advanceState ∧ ¬stepDeadline advanceState := by decide
theorem witness_CaptureStoresOneByte :
    (∀ u ∈ [{ sendingState with pos := 5 }, awaitingState, { awaitingState with pos := 6 }],
      (u.fsm = .sending ∧ u.pos.val ≤ 5 ∨ u.fsm = .awaiting) ∧ u.input.rst = false ∧ u.rxN ≤ u.params.rxBufMax
        ∧ Memory.wf u.rxb = true ∧ ¬frameComplete u ∧ ¬responseNull u ∧ u.input.rxErr = false)
    ∧ byteArrives (withInput sendingState { quietInputs with rxValid := true })
    ∧ sendingState.rxN ≠ sendingState.params.rxBufMax
    ∧ frameComplete (withInput sendingState { quietInputs with rxValid := true, rxData := 0x0D#8 })
    ∧ responseNull (withInput { sendingState with rxN := 4113 } { quietInputs with rxValid := true }) := by decide
theorem witness_BytesOutsideCaptureWindowAreDropped :
    ((advanceState.fsm ≠ .sending ∧ advanceState.fsm ≠ .awaiting) ∧ advanceState.script = quietInputs :: [])
    ∧ { sendingState with rxState := .complete }.rxState ≠ .capturing
    ∧ { sendingState with rxState := .complete }.script = quietInputs :: [] := by decide

/-- Two periods that deliver the response "0", carriage return. -/
def deliveryState : State :=
  { awaitingState with script := [{ quietInputs with rxValid := true, rxData := 0x30#8 },
      { quietInputs with rxValid := true, rxData := 0x0D#8 }] }

theorem witness_DeliveredFrameIsCapturedWhole :
    deliveryState.fsm = .awaiting ∧ deliveryState.rxState = .capturing ∧ deliveryState.rxN = 0
    ∧ Memory.wf deliveryState.rxb = true ∧ deliveryState.pollBudget = 0#24
    ∧ deliveryState.stepT.toNat < deliveryState.stepBudget.toNat ∧ (∀ b ∈ [0x30#8], b ≠ Config.delim)
    ∧ [0x30#8].length + 1 ≤ deliveryState.params.rxBufMax
    ∧ (∀ k, k < [0x30#8].length + 1 → ∃ i, deliveryState.script[k]? = some i
        ∧ deliversOnly (([0x30#8] ++ [Config.delim]).getD k 0#8) i) := by
  refine ⟨rfl, rfl, rfl, rfl, rfl, by decide, by decide, by decide, fun k hk => ?_⟩
  match k, hk with
  | 0, _ => exact ⟨_, rfl, rfl, rfl, rfl, rfl, rfl⟩
  | 1, _ => exact ⟨_, rfl, rfl, rfl, rfl, rfl, rfl⟩

/-- Two periods in which the transport takes the two bytes of the request. -/
def requestState : State :=
  { sendingState with script := [{ quietInputs with txReady := true }, { quietInputs with txReady := true }] }

theorem witness_RequestIsOfferedInOrder :
    requestState.fsm = .sending ∧ requestState.sendIdx = 0 ∧ requestState.request = some [0x53#8, 0x0D#8]
    ∧ requestState.rxN ≤ requestState.params.rxBufMax ∧ requestState.pollBudget = 0#24
    ∧ requestState.stepT.toNat < requestState.stepBudget.toNat ∧ 2 ≤ [0x53#8, 0x0D#8].length
    ∧ (∀ j, j < 2 → ∃ i, requestState.script[j]? = some i ∧ takesOnly i) := by
  refine ⟨rfl, rfl, rfl, by decide, rfl, by decide, by decide, fun j hj => ?_⟩
  match j, hj with
  | 0, _ => exact ⟨_, rfl, rfl, rfl, rfl, rfl⟩
  | 1, _ => exact ⟨_, rfl, rfl, rfl, rfl, rfl⟩

/-! Witnesses: the whole machine -/

theorem sendingState_inv : Inv sendingState :=
  ⟨by decide, rfl, by simp [sendingState, withInput, idleState, State.resetWith, Block.reset], by decide,
    fun j hj => absurd hj (Nat.not_lt_zero j), by decide, by decide, show sendingState.stepT.toNat < sendingState.stepBudget.toNat by decide,
    show sendingState.pos.val ≤ 5 ∧ 1 ≤ sendingState.attempts.toNat ∧ sendingState.attempts.toNat ≤ sendingState.pos.val + 1
      by decide,
    fun _ => ⟨[0x53#8, 0x0D#8], rfl, by decide⟩, by decide, rfl, by decide, by decide, by decide⟩

theorem sendingState_timer : pollTimerOk sendingState := Nat.zero_le _

theorem witness_StepKeepsInvariant : Inv sendingState ∧ ∃ t, step sendingState = .next t :=
  ⟨sendingState_inv, (next_of_shown (f := fun _ => true) (by decide)).imp fun _ h => h.1⟩
theorem witness_ResetMeetsInvariant : Params.vectors.legal = true := by decide
theorem witness_GoodStateNeverStops : Inv sendingState := sendingState_inv
theorem witness_StepKeepsPollTimerBound :
    Inv sendingState ∧ pollTimerOk sendingState ∧ ∃ t, step sendingState = .next t :=
  ⟨sendingState_inv, sendingState_timer, (next_of_shown (f := fun _ => true) (by decide)).imp fun _ h => h.1⟩
theorem witness_PollTimerNeverSaturates :
    Inv sendingState ∧ pollTimerOk sendingState ∧ sendingState.fsm ≠ .idle ∧ sendingState.input.rst = false
    ∧ ∃ t, step sendingState = .next t :=
  ⟨sendingState_inv, sendingState_timer, by decide, rfl,
    (next_of_shown (f := fun _ => true) (by decide)).imp fun _ h => h.1⟩

/-- A poll in a world that ticks in every period. -/
def tickingState : State :=
  { sendingState with script := List.replicate 61 { quietInputs with tick := true } }

theorem witness_TickingPollEnds :
    Inv tickingState ∧ pollTimerOk tickingState ∧ tickingState.fsm ≠ .idle
    ∧ ∀ k, k < 18 * tickingState.stepBudget.toNat + 7 →
        ∃ i, tickingState.script[k]? = some i ∧ i.rst = false ∧ i.tick = true := by
  obtain ⟨h1, h2, h3, h4, h5, h6, h7, h8, h9, h10, h11, h12, h13, h14, h15⟩ := sendingState_inv
  refine ⟨⟨h1, h2, h3, h4, h5, h6, h7, h8, h9, h10, h11, h12, h13, h14, h15⟩, sendingState_timer, by decide, fun k hk => ?_⟩
  exact ⟨{ quietInputs with tick := true }, List.getElem?_replicate_of_lt hk, rfl, rfl⟩

/-- A FrameInvalid, a step timeout, the end of the sleep at pos 6 and a POLL accepted there. -/
theorem witness_PositionChangesOnlyByTheCycle :
    (nullState.input.rst = false ∧ ∃ t, step nullState = .next t ∧ (t.pos == 1 && t.fsm == .advance) = true)
    ∧ (∃ t, step (withInput { sendingState with stepT := 2#16, pos := 5 } { quietInputs with tick := true }) = .next t
      ∧ (t.respValid && t.respCode == .failStepTimeout) = true)
    ∧ (∃ t, step (withInput { advanceState with stepT := 2#16, pos := 6 } { quietInputs with tick := true }) = .next t
      ∧ (t.pos == 0 && t.respCode == .failCycleExhausted) = true)
    ∧ ∃ t, step (withInput { idleState with pos := 6 } (presenting (.cmd 0x100000#24))) = .next t
      ∧ (t.pos == 0 && t.respCode == .failCycleExhausted) = true :=
  ⟨⟨by decide, next_of_shown (by decide)⟩, next_of_shown (by decide), next_of_shown (by decide), next_of_shown (by decide)⟩
theorem witness_OnlySuccessWritesReading :
    (validatingState frameV0).input.rst = false
    ∧ ∃ t, step (validatingState frameV0) = .next t
      ∧ (t.res != (validatingState frameV0).res && t.resValid && !(validatingState frameV0).resValid) = true :=
  ⟨rfl, next_of_shown frame_facts.2.2.2.2.1⟩
theorem witness_HostRegistersChangeOnlyInIdle :
    (∃ t, step (withInput idleState (presenting (.reg true 0x01#6 9#32))) = .next t
        ∧ (t.stepBudget != idleState.stepBudget) = true)
    ∧ (∃ t, step (withInput idleState (presenting (.reg true 0x02#6 9#32))) = .next t
        ∧ (t.pollBudget != idleState.pollBudget) = true)
    ∧ ∃ t, step (withInput idleState (presenting (.cmd 0x500041#24))) = .next t ∧ (t.facc != idleState.facc) = true :=
  ⟨next_of_shown (by decide), next_of_shown (by decide), next_of_shown (by decide)⟩
theorem witness_OneResponsePerOperation :
    (∃ t, step (withInput idleState (presenting (.cmd 0x000000#24))) = .next t ∧ t.respValid = true)
    ∧ ∃ t, step quietIdle = .next t ∧ (!t.respValid) = true :=
  ⟨next_of_shown (by decide), next_of_shown (by decide)⟩
theorem witness_UnreadBufferBytesNeverMatter :
    SameButUnread awaitingState { awaitingState with rxb := [(0, 0x41#8)] } ∧ ∃ t, step awaitingState = .next t :=
  ⟨⟨rfl, fun j hj => absurd hj (Nat.not_lt_zero j), rfl, rfl⟩,
    (next_of_shown (f := fun _ => true) (by decide)).imp fun _ h => h.1⟩
theorem witness_PayloadContentNeverMatters :
    SameButPayloadBytes sendingState.params { sendingState.params with pStatus := [0x5A#8, 0x0D#8] }
    ∧ ∃ t, step sendingState = .next t :=
  ⟨⟨rfl, rfl, rfl, rfl⟩, (next_of_shown (f := fun _ => true) (by decide)).imp fun _ h => h.1⟩

end Sys2Proof.Tests
end

section
/-! PROOFS. Hex digits (00_scope.md R16). -/

namespace Sys2Proof.Machine

open Sys2Proof.Safety

/-- Four hex digits are a frame of length four, so they read as the law of frames says. -/
theorem hex4_toNat {c0 c1 c2 c3 : Byte} (h0 : hexChar c0 = true) (h1 : hexChar c1 = true) (h2 : hexChar c2 = true)
    (h3 : hexChar c3 = true) :
    (hex4 c0 c1 c2 c3).toNat
      = digitValue c0 * 4096 + digitValue c1 * 256 + digitValue c2 * 16 + digitValue c3 := by
  refine hexAt_toNat (t := [c0, c1, c2, c3]) (o := 0) fun x _ hx => ?_
  rcases x with _ | _ | _ | _ | x
  · exact h0
  · exact h1
  · exact h2
  · exact h3
  · omega

/-- Settles O30: the three parts are the laws of is_hex, of hexval and of four digits. -/
theorem hexDigitsReadBigEndian : Obligations.HexDigitsReadBigEndian :=
  ⟨isHex_eq, hexVal_toNat, fun _ _ _ _ => hex4_toNat⟩

end Sys2Proof.Machine
end

section
/-! PROOFS. The content of the request frames is output only (00_scope.md R10): every operation of a period commutes
with exchanging the parameters for others that differ in nothing but the frames' bytes. -/

namespace Sys2Proof.Safety.SameButPayloadBytes

open Sys2Proof.Machine

variable {p q : Params}

theorem rxBufMax (h : SameButPayloadBytes p q) : q.rxBufMax = p.rxBufMax :=
  (congrArg Params.rxBufMax h.1).symm

/-- The reset values are the parameters' budgets and constants (10_state.md R56). -/
theorem blockReset (h : SameButPayloadBytes p q) : Block.reset q = Block.reset p := by
  rw [← h.1]; rfl

/-- The validator reads no parameter but OK_CODE and STATUS_CLASS. -/
theorem validate (h : SameButPayloadBytes p q) (f : Option (List Byte)) : validate q f = validate p f := by
  rw [← h.1]; cases f <;> rfl

/-- The same entries of PAYLOAD exist, and are as long. -/
theorem payload_length (h : SameButPayloadBytes p q) (k : Nat) :
    (payload q k).map List.length = (payload p k).map List.length := by
  obtain ⟨-, hStatus, hA, hB⟩ := h
  simp only [payload, ← List.getElem?_map, List.map_cons, List.map_nil, hStatus, hA, hB]

end Sys2Proof.Safety.SameButPayloadBytes

namespace Sys2Proof.Machine

open Sys2Proof.Safety

/-- The same state of a block with other parameters. -/
def State.withParams (s : State) (q : Params) : State := { s with params := q }

/-- Answer the next state with other parameters in it: after andThen, a result whose stops are kept. -/
def nextWithParams (q : Params) (s : State) : Result := .next (s.withParams q)

theorem andThen_nextWithParams {q : Params} {r r' : Result} {f : State → Result}
    (hr : r' = andThen r (nextWithParams q))
    (hf : ∀ t, r = .next t → f (t.withParams q) = andThen (f t) (nextWithParams q)) :
    andThen r' f = andThen (andThen r f) (nextWithParams q) := by
  subst hr
  cases r with
  | next t => exact hf t rfl
  | fault e => rfl
  | refused e => rfl

section Operations

variable {s : State} {q : Params}

@[simp] theorem State.withParams_params : (s.withParams q).params = q := rfl
@[simp] theorem State.withParams_toBlock : (s.withParams q).toBlock = s.toBlock := rfl
@[simp] theorem State.withParams_input : (s.withParams q).input = s.input := rfl
@[simp] theorem State.withParams_frame : (s.withParams q).frame = s.frame := rfl
@[simp] theorem State.withParams_outerDue (i : Inputs) : (s.withParams q).outerDue i = s.outerDue i := rfl
@[simp] theorem State.withParams_stepDue (i : Inputs) : (s.withParams q).stepDue i = s.stepDue i := rfl

/-! The register access and the commands -/

theorem State.writeReg_withParams (a : RegAddr) (w : Word) :
    (s.withParams q).writeReg a w = (s.writeReg a w).withParams q := by
  unfold State.writeReg
  split
  · rfl
  · split <;> rfl

theorem State.afterPort_withParams : (s.withParams q).afterPort = s.afterPort.withParams q := by
  unfold State.afterPort
  rw [State.withParams_input]
  split
  · exact State.writeReg_withParams (s := s.beginPeriod.sampleReg s.input.regAddr) _ _
  · rfl

theorem State.whenAccepted_withParams {f : State → State} (hf : f (s.withParams q) = (f s).withParams q) :
    (s.withParams q).whenAccepted f = (s.whenAccepted f).withParams q := by
  unfold State.whenAccepted
  rw [State.withParams_toBlock]
  split
  · exact hf
  · rfl

theorem State.startPoll_withParams (link : Bool) :
    (s.withParams q).startPoll link = (s.startPoll link).withParams q := by
  unfold State.startPoll
  dsimp only
  split
  · rfl
  · rw [State.withParams_toBlock]
    split <;> rfl

/-- No instruction reads a parameter. -/
theorem exec_withParams (i : Instr) : exec i (s.withParams q) = andThen (exec i s) (nextWithParams q) := by
  cases i with
  | poll => exact congrArg Host.Outcome.next (State.whenAccepted_withParams (State.startPoll_withParams _))
  | regRd a => rfl
  | regWr a w =>
    exact congrArg Host.Outcome.next
      (State.whenAccepted_withParams (s := s.sampleReg a) (State.writeReg_withParams a w))
  | nop | lchkGen | lchkChk | fchkClr | fchkAdd | fchkGet | fchkChk | illegal =>
    exact congrArg Host.Outcome.next (State.whenAccepted_withParams rfl)

theorem commandPhase_withParams (i : Inputs) :
    commandPhase i (s.withParams q) = andThen (commandPhase i s) (nextWithParams q) := by
  unfold commandPhase
  split
  · exact exec_withParams _
  · rfl

/-! The events of a running poll: none reads a parameter -/

theorem State.deadlines_withParams (i : Inputs) : (s.withParams q).deadlines i = (s.deadlines i).withParams q := by
  unfold State.deadlines
  rw [State.withParams_outerDue, State.withParams_stepDue]
  split
  · rfl
  · split <;> rfl

theorem State.sendingEvent_withParams (i : Inputs) (sent : Bool) :
    (s.withParams q).sendingEvent i sent = (s.sendingEvent i sent).withParams q := by
  unfold State.sendingEvent
  split
  · rfl
  · split
    · rfl
    · exact State.deadlines_withParams i

theorem State.awaitingEvent_withParams (i : Inputs) :
    (s.withParams q).awaitingEvent i = (s.awaitingEvent i).withParams q := by
  unfold State.awaitingEvent
  rw [State.withParams_toBlock]
  split
  · rfl
  · split
    · rfl
    · exact State.deadlines_withParams i

theorem State.advanceCycle_withParams :
    (s.withParams q).advanceCycle = andThen s.advanceCycle (nextWithParams q) := by
  unfold State.advanceCycle
  rw [State.withParams_toBlock]
  split <;> rfl

theorem State.endSleep_withParams : (s.withParams q).endSleep = s.endSleep.withParams q := by
  unfold State.endSleep
  rw [State.withParams_toBlock]
  split <;> rfl

theorem advancePeriod_withParams (i : Inputs) :
    advancePeriod i (s.withParams q) = andThen (advancePeriod i s) (nextWithParams q) := by
  refine congrArg Host.Outcome.next ?_
  rw [State.withParams_outerDue, State.withParams_stepDue]
  split
  · rfl
  · split
    · exact State.endSleep_withParams (s := s.countTicks i)
    · rfl

end Operations

/-! The operations that read a parameter read what the two choices share -/

section SharedParameters

variable {s : State} {q : Params} (h : SameButPayloadBytes s.params q)
include h

theorem State.request_withParams : (s.withParams q).request.map List.length = s.request.map List.length :=
  h.payload_length s.pos.val

/-- Which byte is offered depends on the request's content, whether one is offered does not. -/
theorem State.txValid_withParams : (s.withParams q).txValid = s.txValid := by
  have hlen : ((s.withParams q).request.getD []).length = (s.request.getD []).length := by
    rw [← Option.getD_map List.length, ← Option.getD_map List.length, State.request_withParams h]
  unfold State.txValid
  rw [hlen, State.withParams_toBlock]

theorem State.transfer_withParams (i : Inputs) : (s.withParams q).transfer i = (s.transfer i).withParams q := by
  unfold State.transfer
  rw [State.txValid_withParams h]
  split <;> rfl

theorem State.capture_withParams (i : Inputs) :
    (s.withParams q).capture i = andThen (s.capture i) (nextWithParams q) := by
  unfold State.capture
  rw [State.withParams_toBlock, State.withParams_params, h.rxBufMax]
  split
  · split
    · rfl
    · split <;> rfl
  · rfl

theorem sendingPeriod_withParams (i : Inputs) :
    sendingPeriod i (s.withParams q) = andThen (sendingPeriod i s) (nextWithParams q) := by
  have hlen := State.request_withParams h
  unfold sendingPeriod
  cases hs : s.request with
  | none =>
    rw [hs, Option.map_none, Option.map_eq_none_iff] at hlen
    rw [hlen]
    rfl
  | some req =>
    rw [hs, Option.map_some, Option.map_eq_some_iff] at hlen
    obtain ⟨req', hq, hreq⟩ := hlen
    simp only [hq, hreq]
    refine andThen_nextWithParams (State.capture_withParams h i) fun t ht => congrArg Host.Outcome.next ?_
    have hparams : t.params = s.params := by rw [State.capture_frame ht]
    rw [State.transfer_withParams (hparams ▸ h)]
    exact State.sendingEvent_withParams i _

theorem awaitingPeriod_withParams (i : Inputs) :
    awaitingPeriod i (s.withParams q) = andThen (awaitingPeriod i s) (nextWithParams q) :=
  andThen_nextWithParams (State.capture_withParams h i) fun _ _ =>
    congrArg Host.Outcome.next (State.awaitingEvent_withParams i)

theorem validatingPeriod_withParams (i : Inputs) :
    validatingPeriod i (s.withParams q) = andThen (validatingPeriod i s) (nextWithParams q) := by
  unfold validatingPeriod
  rw [State.withParams_toBlock, State.withParams_params, State.withParams_frame, h.rxBufMax, h.validate]
  split
  · rfl
  · dsimp only
    split
    · rfl
    · exact State.advanceCycle_withParams (s := (s.countPoll i).record (validate s.params s.frame))

theorem acquire_withParams (pre : Fsm) (i : Inputs) :
    acquire pre i (s.withParams q) = andThen (acquire pre i s) (nextWithParams q) := by
  cases pre with
  | idle => rfl
  | sending => exact sendingPeriod_withParams h i
  | awaiting => exact awaitingPeriod_withParams h i
  | validating => exact validatingPeriod_withParams h i
  | advance => exact advancePeriod_withParams i

theorem State.resetBlock_withParams : (s.withParams q).resetBlock = s.resetBlock.withParams q := by
  unfold State.resetBlock
  rw [State.withParams_params, h.blockReset]
  rfl

/-- A step commutes with the exchange of the parameters, and stops with the same fault where it stops. -/
theorem step_withParams : step (s.withParams q) = andThen (step s) (nextWithParams q) := by
  cases hr : s.input.rst with
  | true =>
    rw [step_reset hr, step_reset (s := s.withParams q) hr]
    exact congrArg (fun t : State => Host.Outcome.next t.endPeriod)
      (State.resetBlock_withParams (s := s.sampleReg s.input.regAddr) h)
  | false =>
    by_cases hi : s.fsm = .idle
    · rw [step_idle hr hi, step_idle (s := s.withParams q) hr hi, State.afterPort_withParams]
      exact andThen_nextWithParams (commandPhase_withParams s.input) fun _ _ => rfl
    · rw [step_busy hr hi, step_busy (s := s.withParams q) hr hi]
      exact andThen_nextWithParams (acquire_withParams (s := s.busyStart) h s.fsm s.input) fun _ _ => rfl

end SharedParameters

/-- Settles O60: the step commutes with exchanging the parameters. -/
theorem payloadContentNeverMatters : Obligations.PayloadContentNeverMatters := by
  intro s t q h ht
  have hstep := step_withParams h
  rw [ht] at hstep
  exact hstep

end Sys2Proof.Machine
end

section
/-! PROOFS. The invariant of the machine: reset meets it (10_state.md R56) and every step keeps it (10_state.md R36, R39,
R40, R42; 44_acquisition_fsm.md R269). One lemma per operation of a period; a period is their composition. -/

namespace Sys2Proof.Safety

open Sys2Proof.Machine

/-- The part of the invariant in which fsm has no say. -/
structure Always (s : State) : Prop where
  params : s.params.legal = true
  bufferWf : Memory.wf s.rxb = true
  bufferFits : ∀ c ∈ s.rxb, c.1 < s.params.rxBufMax
  countFits : s.rxN ≤ s.params.rxBufMax
  capture : captureOk s
  budget : s.stepBudget ≠ 0#16
  energy : s.res.energy = energyOf s.res.volt s.capRaw
  codeKnown : s.respCode ≠ .none
  outcomeOfPoll : s.lastOutcome ≠ .illegal

section Facts

variable {s : State}

theorem Inv.always (h : Inv s) : Always s := { h with }
theorem Always.countTicks (h : Always s) (i : Inputs) : Always (s.countTicks i) := { h with }

theorem budget_pos (h : s.stepBudget ≠ 0#16) : 0 < s.stepBudget.toNat :=
  Nat.pos_of_ne_zero fun h0 => h (BitVec.eq_of_toNat_eq h0)

/-- PAYLOAD has an entry for each position up to 5 (00_scope.md R9). -/
theorem request_exists (h : s.pos.val ≤ 5) : ∃ req, s.request = some req :=
  ⟨_, List.getElem?_eq_getElem (Nat.lt_succ_of_le h)⟩

theorem Inv.resValid_of_busy (h : Inv s) (hb : s.fsm ≠ .idle) : s.resValid = false :=
  Bool.eq_false_iff.2 fun hr => hb (h.readingValid.1 hr).1

theorem Inv.respValid_of_busy (h : Inv s) (hb : s.fsm ≠ .idle) : s.respValid = false :=
  Bool.eq_false_iff.2 fun hr => hb (h.responseIdle hr)

theorem Inv.attempts_le_six (h : Inv s) : s.attempts.toNat ≤ 6 := by
  have hpos := s.pos.isLt
  have h := h.position
  unfold positionOk at h
  split at h <;> omega

/-- The position of an attempt: one that is sent, awaited or validated (44_acquisition_fsm.md R269). -/
theorem Inv.attempt_position (h : Inv s) (hb : s.fsm ≠ .idle) (ha : s.fsm ≠ .advance) :
    s.pos.val ≤ 5 ∧ 1 ≤ s.attempts.toNat ∧ s.attempts.toNat ≤ s.pos.val + 1 := by
  have h := h.position
  unfold positionOk at h
  split at h
  · exact absurd ‹_› hb
  · exact h
  · exact h
  · exact h
  · exact absurd ‹_› ha

/-- Where the step budget is not used up, the step timer counts without wrapping. -/
theorem stepT_lt_of_not_due {i : Inputs} (h : s.stepDue i = false) :
    (s.countTicks i).stepT.toNat < s.stepBudget.toNat := by
  have h : s.stepSum i < s.stepBudget.toNat := by simpa [State.stepDue] using h
  exact Nat.lt_of_le_of_lt (Nat.mod_le _ _) h

end Facts

/-! What ends a poll, and what begins an attempt -/

section Ends

variable {s : State}

theorem Always.inv_of_idle (h : Always s) (hf : s.fsm = .idle) (ha : s.attempts.toNat ≤ 6)
    (hr : s.resValid = true ↔ s.lastOutcome = .ok) : Inv s :=
  { h with
    response := fun hv => by simp [hf] at hv
    timer := by simp [timerOk, hf]
    position := by simpa [positionOk, hf] using ha
    sendRange := fun hv => by simp [hf] at hv
    readingValid := by simpa [hf] using hr
    responseIdle := fun _ => hf }

theorem Always.inv_endPoll (h : Always s) {code : RespCode} (ha : s.attempts.toNat ≤ 6)
    (hr : s.resValid = true ↔ code = .ok) (hn : code ≠ .none) (hi : code ≠ .illegal) : Inv (s.endPoll code) :=
  have hend : Always (s.endPoll code) := { h with codeKnown := hn, outcomeOfPoll := hi }
  hend.inv_of_idle rfl ha hr

theorem Always.inv_enterSending (h : Always s) (hp : s.pos.val ≤ 5) (h1 : 1 ≤ s.attempts.toNat)
    (ha : s.attempts.toNat ≤ s.pos.val + 1) (hres : s.resValid = false) (hresp : s.respValid = false) :
    Inv s.enterSending :=
  { h with
    countFits := Nat.zero_le _
    capture := fun j hj => absurd hj (Nat.not_lt_zero j)
    response := nofun
    timer := budget_pos h.budget
    position := ⟨hp, h1, ha⟩
    sendRange := fun _ => (request_exists hp).imp fun _ hreq => ⟨hreq, Nat.zero_le _⟩
    readingValid := by simp [hres]
    responseIdle := by simp [hresp] }

/-- Every failure of a running poll ends it in a good state. -/
theorem Inv.endPoll_failure (h : Inv s) (hb : s.fsm ≠ .idle) (i : Inputs) {code : RespCode} (ho : code ≠ .ok)
    (hn : code ≠ .none) (hi : code ≠ .illegal) : Inv ((s.countTicks i).endPoll code) :=
  (h.always.countTicks i).inv_endPoll h.attempts_le_six (by simp [h.resValid_of_busy hb, ho]) hn hi

end Ends

/-! The parts every period has -/

section Parts

variable {s : State}

theorem Inv.beginPeriod (h : Inv s) : Inv s.beginPeriod := { h with responseIdle := nofun }
theorem Inv.sampleReg (h : Inv s) (a : RegAddr) : Inv (s.sampleReg a) := { h with }
theorem Inv.endPeriod (h : Inv s) : Inv s.endPeriod := { h with }
theorem Inv.busyStart (h : Inv s) : Inv s.busyStart := h.beginPeriod.sampleReg _

/-- A budget written in IDLE is never 0, and no timer runs there. -/
theorem Inv.writeReg (h : Inv s) (hf : s.fsm = .idle) (a : RegAddr) (w : Word) : Inv (s.writeReg a w) := by
  unfold State.writeReg
  split
  · exact { h with budget := stepBudgetOf_ne_zero w, timer := by simp [timerOk, hf] }
  · split
    · exact { h with }
    · exact h

theorem Inv.afterPort (h : Inv s) (hf : s.fsm = .idle) : Inv s.afterPort := by
  unfold State.afterPort
  split
  · exact (h.beginPeriod.sampleReg _).writeReg hf _ _
  · exact h.beginPeriod.sampleReg _

/-- A block in the reset state is good, whatever the rest of the state is. -/
theorem inv_of_toBlock_reset (hp : s.params.legal = true) (hb : s.toBlock = Block.reset s.params) : Inv s := by
  obtain ⟨b, p, script, period, rdata⟩ := s
  obtain rfl : b = Block.reset p := hb
  have hbudget : p.stepBudgetRst ≠ 0#16 := by
    simp only [Params.legal, Bool.and_eq_true, bne_iff_ne] at hp
    exact hp.1.1.2
  have halways : Always ⟨Block.reset p, p, script, period, rdata⟩ :=
    { params := hp
      bufferWf := rfl
      bufferFits := nofun
      countFits := Nat.zero_le _
      capture := fun j hj => absurd hj (Nat.not_lt_zero j)
      budget := hbudget
      energy := rfl
      codeKnown := nofun
      outcomeOfPoll := nofun }
  exact halways.inv_of_idle rfl (Nat.zero_le _) (by simp [Block.reset])

end Parts

/-! A command in IDLE -/

section Commands

variable {s t : State}

theorem Inv.startPoll (h : Inv s) (hresp : s.respValid = false) (link : Bool) : Inv (s.startPoll link) := by
  have ha : ∀ n : BitVec 3, ∀ p : Fin 7,
      Always { s with resValid := false, attempts := n, pollT := 0#24, pos := p } := fun _ _ => { h.always with }
  rcases s.startPoll_cases link with ⟨-, e⟩ | ⟨-, -, e⟩ | ⟨-, hp, e⟩ <;> rw [e]
  · exact (ha 0#3 s.pos).inv_endPoll (Nat.zero_le _) (by simp) nofun nofun
  · exact (ha 0#3 0).inv_endPoll (Nat.zero_le _) (by simp) nofun nofun
  · exact (ha 1#3 s.pos).inv_enterSending hp (Nat.le_refl 1) (Nat.le_add_left 1 _) rfl hresp

theorem Inv.commandPhase (h : Inv s) (hf : s.fsm = .idle) (hresp : s.respValid = false) {i : Inputs}
    (ht : commandPhase i s = .next t) : Inv t := by
  unfold Machine.commandPhase at ht
  split at ht
  · rcases exec_command_idle hf ht with ⟨c, d, a, hc, -, -, rfl⟩ | ⟨-, rfl⟩
    · have hn : c ≠ .none := by rcases hc with rfl | rfl <;> nofun
      exact { h with codeKnown := hn, responseIdle := fun _ => hf }
    · exact h.startPoll hresp _
  · obtain rfl := Host.Outcome.next.inj ht
    exact h

end Commands

/-! The periods of a running poll -/

section Poll

variable {s t : State} {i : Inputs}

/-- What is captured stays a frame so far: a delimiter completes it (42_frame_validation.md R202). -/
theorem captureOk_store (hwf : Memory.wf s.rxb = true) (hcap : captureOk s) (hs : s.rxState = .capturing) (b : Byte) :
    captureOk { s with
      rxb := Memory.write s.rxb s.rxN b
      rxN := s.rxN + 1
      rxState := if b = Config.delim then .complete else .capturing } := by
  have hbefore : ∀ j < s.rxN, Memory.read (Memory.write s.rxb s.rxN b) j ≠ Config.delim := fun j hj => by
    rw [Memory.read_write_other b hwf (Nat.ne_of_lt hj)]
    simp only [captureOk, hs] at hcap
    exact hcap j hj
  have hlast := Memory.read_write_same s.rxN b hwf
  by_cases hb : b = Config.delim
  · simp only [captureOk, if_pos hb]
    exact ⟨Nat.succ_pos _, hlast.trans hb, hbefore⟩
  · simp only [captureOk, if_neg hb]
    intro j hj
    rcases Nat.lt_succ_iff_lt_or_eq.1 hj with hj | rfl
    · exact hbefore j hj
    · rwa [hlast]

theorem Inv.of_capture (h : Inv s) (hv : s.fsm ≠ .validating) (ht : s.capture i = .next t) : Inv t := by
  rcases State.capture_cases ht with ⟨-, rfl⟩ | ⟨-, -, -, rfl⟩ | ⟨hs, -, hn, rfl⟩
  · exact h
  · exact { h with capture := trivial, response := fun hf => absurd hf hv }
  · exact { h with
      bufferWf := Memory.write_wf _ _ h.bufferWf
      bufferFits := fun c hc => by
        rcases Memory.mem_write hc with hc | hc
        · exact hc ▸ hn
        · exact h.bufferFits c hc
      countFits := hn
      capture := captureOk_store h.bufferWf h.capture hs _
      response := fun hf => absurd hf hv }

/-- A byte is taken only where the request has one left. -/
theorem Inv.transfer (h : Inv s) : Inv (s.transfer i) := by
  rcases s.transfer_cases i with ⟨htx, -, e⟩ | ⟨-, e⟩ <;> rw [e]
  · refine { h with sendRange := fun hf => ?_ }
    obtain ⟨req, hreq, -⟩ := h.sendRange hf
    have hlt : s.sendIdx < req.length := by simpa [State.txValid, hreq, show s.fsm = .sending from hf] using htx
    exact ⟨req, hreq, hlt⟩
  · exact h

/-- One more tick counted, where no deadline holds. -/
theorem Inv.countTicks (h : Inv s) (hv : s.fsm ≠ .validating) (hd : s.stepDue i = false) : Inv (s.countTicks i) := by
  have hlt := stepT_lt_of_not_due hd
  refine { h with timer := ?_ }
  unfold timerOk
  split
  · trivial
  · exact hlt
  · exact hlt
  · exact absurd ‹_› hv
  · exact hlt

theorem Inv.deadlines (h : Inv s) (hb : s.fsm ≠ .idle) (hv : s.fsm ≠ .validating) : Inv (s.deadlines i) := by
  rcases s.deadlines_cases i with ⟨-, e⟩ | ⟨-, -, e⟩ | ⟨-, hd, e⟩ <;> rw [e]
  · exact h.endPoll_failure hb i nofun nofun nofun
  · exact h.endPoll_failure hb i nofun nofun nofun
  · exact h.countTicks hv hd

theorem Inv.enterAwaiting (h : Inv s) (hf : s.fsm = .sending) : Inv (s.countTicks i).enterAwaiting :=
  have hb : s.fsm ≠ .idle := by simp [hf]
  { h with
    response := nofun
    timer := budget_pos h.budget
    position := h.attempt_position hb (by simp [hf])
    sendRange := nofun
    readingValid := by simp [h.resValid_of_busy hb]
    responseIdle := by simp [h.respValid_of_busy hb] }

theorem Inv.sendingEvent (h : Inv s) (hf : s.fsm = .sending) (sent : Bool) : Inv (s.sendingEvent i sent) := by
  have hb : s.fsm ≠ .idle := by simp [hf]
  rcases s.sendingEvent_cases i sent with ⟨-, e⟩ | ⟨-, -, -, e⟩ | ⟨-, -, e⟩ <;> rw [e]
  · exact h.endPoll_failure hb i nofun nofun nofun
  · exact h.enterAwaiting hf
  · exact h.deadlines hb (by simp [hf])

/-- The validator gets a frame or the null response; the period's tick may be the one that uses up the step budget. -/
theorem Inv.enterValidating (h : Inv s) (hf : s.fsm = .awaiting) {x : RxState} (hx : x ≠ .capturing)
    (hcap : captureOk { s with rxState := x }) :
    Inv { s.countTicks i with rxState := x, fsm := .validating } := by
  have hb : s.fsm ≠ .idle := by simp [hf]
  have hstep : s.stepT.toNat < s.stepBudget.toNat := by simpa only [timerOk, hf] using h.timer
  have htick := i.tick.toNat_le
  have htimer : (s.countTicks i).stepT.toNat ≤ s.stepBudget.toNat :=
    (Nat.mod_le _ _).trans (by unfold State.stepSum; omega)
  exact { h with
    capture := hcap
    response := fun _ => hx
    timer := htimer
    position := h.attempt_position hb (by simp [hf])
    sendRange := nofun
    readingValid := by simp [h.resValid_of_busy hb]
    responseIdle := by simp [h.respValid_of_busy hb] }

theorem Inv.awaitingEvent (h : Inv s) (hf : s.fsm = .awaiting) : Inv (s.awaitingEvent i) := by
  rcases s.awaitingEvent_cases i with ⟨hx, e⟩ | ⟨-, -, e⟩ | ⟨-, -, e⟩ <;> rw [e]
  · exact h.enterValidating hf (x := s.rxState) (by simp [hx]) h.capture
  · exact h.enterValidating hf nofun trivial
  · exact h.deadlines (by simp [hf]) (by simp [hf])

theorem Inv.sendingPeriod (h : Inv s) (hf : s.fsm = .sending) (ht : sendingPeriod i s = .next t) : Inv t := by
  obtain ⟨req, u, -, hu, rfl⟩ := sendingPeriod_cases ht
  have huf : u.fsm = .sending := by rw [State.capture_frame hu]; exact hf
  exact (h.of_capture (by simp [hf]) hu).transfer.sendingEvent (by simpa using huf) _

theorem Inv.awaitingPeriod (h : Inv s) (hf : s.fsm = .awaiting) (ht : awaitingPeriod i s = .next t) : Inv t := by
  obtain ⟨u, hu, rfl⟩ := awaitingPeriod_cases ht
  have huf : u.fsm = .awaiting := by rw [State.capture_frame hu]; exact hf
  exact (h.of_capture (by simp [hf]) hu).awaitingEvent huf

/-- The energy register is the product that the decoder commits with its two factors (41_telemetry_decoder.md R162). -/
theorem Inv.validatingPeriod (h : Inv s) (hf : s.fsm = .validating) (ht : validatingPeriod i s = .next t) : Inv t := by
  have hb : s.fsm ≠ .idle := by simp [hf]
  rcases validatingPeriod_cases ht with ⟨-, rfl⟩ | ⟨-, hp, rfl⟩
  · have hcommit : Always (((s.countPoll i).record (validate s.params s.frame)).commit s.captured) :=
      { h.always with energy := rfl }
    exact hcommit.inv_endPoll h.attempts_le_six (by simp) nofun nofun
  · obtain ⟨-, h1, ha⟩ := h.attempt_position hb (by simp [hf])
    exact { h with
      response := nofun
      timer := budget_pos h.budget
      position := ⟨h1, ha⟩
      sendRange := nofun
      readingValid := by simp [h.resValid_of_busy hb]
      responseIdle := by simp [h.respValid_of_busy hb] }

/-- The end of the sleep counts one more attempt only below position 6, so attempts stays within 6 (10_state.md R40). -/
theorem Inv.endSleep (h : Inv s) (hf : s.fsm = .advance) : Inv (s.countTicks i).endSleep := by
  have hb : s.fsm ≠ .idle := by simp [hf]
  obtain ⟨h1, ha⟩ : 1 ≤ s.attempts.toNat ∧ s.attempts.toNat ≤ s.pos.val := by
    simpa only [positionOk, hf] using h.position
  rcases (s.countTicks i).endSleep_cases with ⟨-, e⟩ | ⟨hp, e⟩ <;> rw [e]
  · have hreset : Always { s.countTicks i with pos := 0 } := { h.always with }
    exact hreset.inv_endPoll h.attempts_le_six (by simp [h.resValid_of_busy hb]) nofun nofun
  · have hp : s.pos.val ≤ 5 := hp
    have hsucc : (s.attempts + 1#3).toNat = s.attempts.toNat + 1 := by
      rw [BitVec.toNat_add]
      exact Nat.mod_eq_of_lt (show s.attempts.toNat + 1 < 8 by omega)
    refine Always.inv_enterSending { h.always with } hp ?_ ?_ (h.resValid_of_busy hb) (h.respValid_of_busy hb)
    · exact hsucc ▸ Nat.le_add_left 1 _
    · exact hsucc ▸ Nat.succ_le_succ ha

theorem Inv.advancePeriod (h : Inv s) (hf : s.fsm = .advance) (ht : advancePeriod i s = .next t) : Inv t := by
  rcases advancePeriod_cases ht with ⟨-, rfl⟩ | ⟨-, -, rfl⟩ | ⟨-, hd, rfl⟩
  · exact h.endPoll_failure (by simp [hf]) i nofun nofun nofun
  · exact h.endSleep hf
  · exact h.countTicks (by simp [hf]) hd

theorem Inv.acquire (h : Inv s) (ht : acquire s.fsm i s = .next t) : Inv t := by
  cases hf : s.fsm <;> rw [hf] at ht
  case idle =>
    obtain rfl := Host.Outcome.next.inj ht
    exact h
  case sending => exact h.sendingPeriod hf ht
  case awaiting => exact h.awaitingPeriod hf ht
  case validating => exact h.validatingPeriod hf ht
  case advance => exact h.advancePeriod hf ht

end Poll

/-- Settles O49, by the three kinds of step: a reset, a period in IDLE, a period of a running poll. -/
theorem stepKeepsInvariant : Obligations.StepKeepsInvariant := by
  intro s t h ht
  rcases step_cases ht with ⟨-, rfl⟩ | ⟨-, hf, u, hu, rfl⟩ | ⟨-, -, u, hu, rfl⟩
  · exact inv_of_toBlock_reset h.params rfl
  · have hresp : s.afterPort.respValid = false := by rw [State.afterPort_toBlock]
    exact ((h.afterPort hf).commandPhase (by simpa using hf) hresp hu).endPeriod
  · exact (h.busyStart.acquire hu).endPeriod

/-- Config.params are legal, whatever the free value is (log 3). -/
theorem params_legal : Config.params.legal = true := by
  unfold Config.params
  split
  · assumption
  · decide

/-- Settles O50: both are reset blocks with legal parameters. -/
theorem resetMeetsInvariant : Obligations.ResetMeetsInvariant :=
  ⟨fun _ hp => inv_of_toBlock_reset hp rfl, inv_of_toBlock_reset params_legal rfl⟩

end Sys2Proof.Safety
end

section
/-! PROOFS. Bytes of RXB at or beyond rx_n never matter (10_state.md R55): every operation of a period but the capture and
the validation commutes with an exchange of the whole of RXB, and these two depend on the bytes below rx_n alone. -/

namespace Sys2Proof.Machine

open Sys2Proof.Safety

/-- The same state with other contents of RXB. -/
def State.withBuffer (s : State) (m : Memory) : State := { s with rxb := m }

@[simp] theorem State.withBuffer_rxN (s : State) (m : Memory) : (s.withBuffer m).rxN = s.rxN := rfl
@[simp] theorem State.withBuffer_rxState (s : State) (m : Memory) : (s.withBuffer m).rxState = s.rxState := rfl
@[simp] theorem State.withBuffer_params (s : State) (m : Memory) : (s.withBuffer m).params = s.params := rfl
@[simp] theorem State.withBuffer_pos (s : State) (m : Memory) : (s.withBuffer m).pos = s.pos := rfl
@[simp] theorem State.withBuffer_sendIdx (s : State) (m : Memory) : (s.withBuffer m).sendIdx = s.sendIdx := rfl
@[simp] theorem State.withBuffer_input (s : State) (m : Memory) : (s.withBuffer m).input = s.input := rfl
@[simp] theorem State.withBuffer_request (s : State) (m : Memory) : (s.withBuffer m).request = s.request := rfl

theorem exists_withBuffer_of_sameButUnread {s u : State} (h : SameButUnread s u) : ∃ m, s.withBuffer m = u :=
  ⟨u.rxb, h.rest⟩

/-- An operation that neither reads nor writes RXB, and adds no byte to those that count. -/
structure IgnoresBuffer (f : State → State) : Prop where
  commutes : ∀ s m, f (s.withBuffer m) = (f s).withBuffer m
  count : ∀ s, (f s).rxN ≤ s.rxN

namespace IgnoresBuffer

section Combine

variable {f g : State → State}

theorem rxb (hf : IgnoresBuffer f) (s : State) : (f s).rxb = s.rxb :=
  have h : f s = (f s).withBuffer s.rxb := hf.commutes s s.rxb
  congrArg (·.rxb) h

theorem sameButUnread (hf : IgnoresBuffer f) {s u : State} (h : SameButUnread s u) : SameButUnread (f s) (f u) where
  rest := by
    rw [hf.rxb u]
    exact (hf.commutes s u.rxb).symm.trans (congrArg f h.rest)
  read j hj := by
    rw [hf.rxb, hf.rxb]
    exact h.read j (Nat.lt_of_lt_of_le hj (hf.count s))
  wfLeft := by rw [hf.rxb]; exact h.wfLeft
  wfRight := by rw [hf.rxb]; exact h.wfRight

theorem comp (hg : IgnoresBuffer g) (hf : IgnoresBuffer f) : IgnoresBuffer fun s => g (f s) :=
  ⟨fun s m => by rw [hf.commutes, hg.commutes], fun s => (hg.count _).trans (hf.count s)⟩

/-- A choice by a condition that does not read RXB. -/
theorem ite {c : State → Prop} [∀ s, Decidable (c s)] (hc : ∀ s m, c (s.withBuffer m) = c s)
    (hf : IgnoresBuffer f) (hg : IgnoresBuffer g) : IgnoresBuffer fun s => if c s then f s else g s := by
  refine ⟨fun s m => ?_, fun s => ?_⟩
  · simp only [hc, hf.commutes, hg.commutes, apply_ite (State.withBuffer · m)]
  · split
    · exact hf.count s
    · exact hg.count s

end Combine

/-! The updates of the state -/

theorem id : IgnoresBuffer fun s => s := ⟨fun _ _ => rfl, fun _ => Nat.le_refl _⟩
theorem beginPeriod : IgnoresBuffer State.beginPeriod := ⟨fun _ _ => rfl, fun _ => Nat.le_refl _⟩
theorem endPeriod : IgnoresBuffer State.endPeriod := ⟨fun _ _ => rfl, fun _ => Nat.le_refl _⟩
theorem sampleReg (a : RegAddr) : IgnoresBuffer (State.sampleReg · a) := ⟨fun _ _ => rfl, fun _ => Nat.le_refl _⟩
theorem respond (c : RespCode) (d : Half) : IgnoresBuffer (State.respond · c d) :=
  ⟨fun _ _ => rfl, fun _ => Nat.le_refl _⟩
theorem endPoll (c : RespCode) : IgnoresBuffer (State.endPoll · c) := ⟨fun _ _ => rfl, fun _ => Nat.le_refl _⟩
theorem enterSending : IgnoresBuffer State.enterSending := ⟨fun _ _ => rfl, fun _ => Nat.zero_le _⟩
theorem enterAwaiting : IgnoresBuffer State.enterAwaiting := ⟨fun _ _ => rfl, fun _ => Nat.le_refl _⟩
theorem countPoll (i : Inputs) : IgnoresBuffer (State.countPoll · i) := ⟨fun _ _ => rfl, fun _ => Nat.le_refl _⟩
theorem countTicks (i : Inputs) : IgnoresBuffer (State.countTicks · i) := ⟨fun _ _ => rfl, fun _ => Nat.le_refl _⟩
theorem record (v : Verdict) : IgnoresBuffer (State.record · v) := ⟨fun _ _ => rfl, fun _ => Nat.le_refl _⟩
theorem commit (t : List Byte) : IgnoresBuffer (State.commit · t) := ⟨fun _ _ => rfl, fun _ => Nat.le_refl _⟩

theorem writeReg (a : RegAddr) (w : Word) : IgnoresBuffer (State.writeReg · a w) :=
  .ite (fun _ _ => rfl) ⟨fun _ _ => rfl, fun _ => Nat.le_refl _⟩
    (.ite (fun _ _ => rfl) ⟨fun _ _ => rfl, fun _ => Nat.le_refl _⟩ .id)

theorem whenAccepted {f : State → State} (hf : IgnoresBuffer f) : IgnoresBuffer (State.whenAccepted · f) :=
  .ite (fun _ _ => rfl) hf .id

theorem transfer (i : Inputs) : IgnoresBuffer (State.transfer · i) :=
  .ite (fun _ _ => rfl) ⟨fun _ _ => rfl, fun _ => Nat.le_refl _⟩ .id

/-- The acceptance of POLL, with the period's link_ok. -/
theorem startPoll : IgnoresBuffer fun s => s.startPoll s.input.linkOk :=
  .ite (fun _ _ => rfl) ⟨fun _ _ => rfl, fun _ => Nat.le_refl _⟩
    (.ite (fun _ _ => rfl) ⟨fun _ _ => rfl, fun _ => Nat.le_refl _⟩ ⟨fun _ _ => rfl, fun _ => Nat.zero_le _⟩)

/-! The events of a running poll -/

theorem deadlines (i : Inputs) : IgnoresBuffer (State.deadlines · i) :=
  .ite (fun _ _ => rfl) ((endPoll _).comp (countTicks i))
    (.ite (fun _ _ => rfl) ((endPoll _).comp (countTicks i)) (countTicks i))

theorem sendingEvent (i : Inputs) (sent : Bool) : IgnoresBuffer (State.sendingEvent · i sent) :=
  .ite (fun _ _ => rfl) ((endPoll _).comp (countTicks i))
    (.ite (fun _ _ => rfl) (enterAwaiting.comp (countTicks i)) (deadlines i))

theorem awaitingEvent (i : Inputs) : IgnoresBuffer (State.awaitingEvent · i) :=
  .ite (fun _ _ => rfl) ⟨fun _ _ => rfl, fun _ => Nat.le_refl _⟩
    (.ite (fun _ _ => rfl) ⟨fun _ _ => rfl, fun _ => Nat.le_refl _⟩ (deadlines i))

theorem endSleep : IgnoresBuffer State.endSleep :=
  .ite (fun _ _ => rfl) ⟨fun _ _ => rfl, fun _ => Nat.le_refl _⟩ ⟨fun _ _ => rfl, fun _ => Nat.zero_le _⟩

end IgnoresBuffer

/-- Two results that agree but for unread bytes: next states that do, or the same stop. -/
inductive ResultsAgree : Result → Result → Prop where
  | next {t v : State} (h : SameButUnread t v) : ResultsAgree (.next t) (.next v)
  | fault (e : Fault) : ResultsAgree (.fault e) (.fault e)
  | refused (e : Refusal) : ResultsAgree (.refused e) (.refused e)

theorem ResultsAgree.andThen {r r' : Result} {f g : State → Result} (hr : ResultsAgree r r')
    (hf : ∀ t v, SameButUnread t v → ResultsAgree (f t) (g v)) : ResultsAgree (andThen r f) (andThen r' g) := by
  cases hr with
  | next h => exact hf _ _ h
  | fault e => exact .fault e
  | refused e => exact .refused e

/-- The statement's words for agreement. -/
theorem ResultsAgree.next_or_same_stop {r r' : Result} (hr : ResultsAgree r r') :
    (∀ t, r = .next t → ∃ v, r' = .next v ∧ SameButUnread t v)
    ∧ (∀ e, r = .fault e → r' = .fault e) ∧ ∀ e, r = .refused e → r' = .refused e := by
  cases hr with
  | next h =>
    refine ⟨fun t ht => ⟨_, rfl, ?_⟩, nofun, nofun⟩
    obtain rfl := Host.Outcome.next.inj ht
    exact h
  | fault e => exact ⟨fun _ ht => (nomatch ht), fun _ he => he, nofun⟩
  | refused e => exact ⟨fun _ ht => (nomatch ht), nofun, fun _ he => he⟩

section Periods

variable {s u : State} (h : SameButUnread s u)
include h

theorem IgnoresBuffer.resultsAgree {f : State → State} (hf : IgnoresBuffer f) :
    ResultsAgree (.next (f s)) (.next (f u)) := .next (hf.sameButUnread h)

/-- No instruction reads RXB. -/
theorem exec_resultsAgree (i : Instr) : ResultsAgree (exec i s) (exec i u) := by
  cases i with
  | poll => exact IgnoresBuffer.startPoll.whenAccepted.resultsAgree h
  | regRd a => exact (IgnoresBuffer.sampleReg a).resultsAgree h
  | regWr a w => exact ((IgnoresBuffer.writeReg a w).whenAccepted.comp (.sampleReg a)).resultsAgree h
  | nop | lchkGen | lchkChk | fchkClr | fchkAdd | fchkGet | fchkChk | illegal =>
    refine (IgnoresBuffer.whenAccepted ?_).resultsAgree h
    exact ⟨fun _ _ => rfl, fun _ => Nat.le_refl _⟩

theorem commandPhase_resultsAgree (i : Inputs) : ResultsAgree (commandPhase i s) (commandPhase i u) := by
  unfold commandPhase
  split
  · exact exec_resultsAgree h _
  · exact .next h

/-- A byte stored at rx_n is the same in both, so the bytes that count still agree. -/
theorem store_sameButUnread (b : Byte) (x : RxState) :
    SameButUnread { s with rxb := Memory.write s.rxb s.rxN b, rxN := s.rxN + 1, rxState := x }
      { u with rxb := Memory.write u.rxb u.rxN b, rxN := u.rxN + 1, rxState := x } := by
  obtain ⟨m, rfl⟩ := exists_withBuffer_of_sameButUnread h
  obtain ⟨-, hread, hs, hm⟩ := h
  refine ⟨rfl, fun j hj => ?_, Memory.write_wf _ _ hs, Memory.write_wf _ _ hm⟩
  refine (Memory.read_write s.rxN j b hs).trans (Eq.trans ?_ (Memory.read_write s.rxN j b hm).symm)
  split
  · rfl
  · exact hread j (Nat.lt_of_le_of_ne (Nat.le_of_lt_succ hj) ‹_›)

theorem capture_resultsAgree (i : Inputs) : ResultsAgree (s.capture i) (u.capture i) := by
  have hstore := store_sameButUnread h i.rxData (if i.rxData = Config.delim then .complete else .capturing)
  obtain ⟨m, rfl⟩ := exists_withBuffer_of_sameButUnread h
  unfold State.capture
  rw [State.withBuffer_rxState, State.withBuffer_params]
  split
  · rw [State.withBuffer_rxN]
    split
    · exact IgnoresBuffer.resultsAgree (f := fun s => { s with rxState := .null }) h
        ⟨fun _ _ => rfl, fun _ => Nat.le_refl _⟩
    · split
      · exact .fault _
      · exact .next hstore
  · exact .next h

theorem sendingPeriod_resultsAgree (i : Inputs) : ResultsAgree (sendingPeriod i s) (sendingPeriod i u) := by
  have hcapture := capture_resultsAgree h i
  obtain ⟨m, rfl⟩ := exists_withBuffer_of_sameButUnread h
  unfold sendingPeriod
  rw [State.withBuffer_request, State.withBuffer_sendIdx]
  split
  · exact .fault _
  · exact hcapture.andThen fun _ _ ht => ((IgnoresBuffer.sendingEvent i _).comp (.transfer i)).resultsAgree ht

theorem awaitingPeriod_resultsAgree (i : Inputs) : ResultsAgree (awaitingPeriod i s) (awaitingPeriod i u) :=
  (capture_resultsAgree h i).andThen fun _ _ ht => (IgnoresBuffer.awaitingEvent i).resultsAgree ht

/-- The captured bytes are those below rx_n. -/
theorem captured_eq_of_sameButUnread : u.captured = s.captured := by
  obtain ⟨m, rfl⟩ := exists_withBuffer_of_sameButUnread h
  exact (Memory.upTo_congr h.read).symm

theorem frame_eq_of_sameButUnread : u.frame = s.frame := by
  have hcaptured := captured_eq_of_sameButUnread h
  obtain ⟨m, rfl⟩ := exists_withBuffer_of_sameButUnread h
  unfold State.frame
  rw [State.withBuffer_rxState, hcaptured]

theorem advanceCycle_resultsAgree : ResultsAgree s.advanceCycle u.advanceCycle := by
  obtain ⟨m, rfl⟩ := exists_withBuffer_of_sameButUnread h
  unfold State.advanceCycle
  rw [State.withBuffer_pos]
  split
  · exact IgnoresBuffer.resultsAgree (f := fun t => { t with pos := _, stepT := 0#16, fsm := .advance }) h
      ⟨fun _ _ => rfl, fun _ => Nat.le_refl _⟩
  · exact .fault _

theorem validatingPeriod_resultsAgree (i : Inputs) : ResultsAgree (validatingPeriod i s) (validatingPeriod i u) := by
  have hcaptured := captured_eq_of_sameButUnread h
  have hframe := frame_eq_of_sameButUnread h
  have hrecord := (IgnoresBuffer.record (validate s.params s.frame)).comp (.countPoll i)
  obtain ⟨m, rfl⟩ := exists_withBuffer_of_sameButUnread h
  unfold validatingPeriod
  rw [State.withBuffer_rxState, State.withBuffer_rxN, State.withBuffer_params, hframe, hcaptured]
  split
  · exact .fault _
  · dsimp only
    split
    · exact (((IgnoresBuffer.endPoll .ok).comp (.commit s.captured)).comp hrecord).resultsAgree h
    · exact advanceCycle_resultsAgree (hrecord.sameButUnread h)

theorem advancePeriod_resultsAgree (i : Inputs) : ResultsAgree (advancePeriod i s) (advancePeriod i u) :=
  IgnoresBuffer.resultsAgree (f := fun s => if s.outerDue i then (s.countTicks i).endPoll .failPollTimeout
      else if s.stepDue i then (s.countTicks i).endSleep else s.countTicks i) h
    (.ite (fun _ _ => rfl) ((IgnoresBuffer.endPoll _).comp (.countTicks i))
      (.ite (fun _ _ => rfl) (IgnoresBuffer.endSleep.comp (.countTicks i)) (.countTicks i)))

theorem acquire_resultsAgree (pre : Fsm) (i : Inputs) : ResultsAgree (acquire pre i s) (acquire pre i u) := by
  cases pre with
  | idle => exact .next h
  | sending => exact sendingPeriod_resultsAgree h i
  | awaiting => exact awaitingPeriod_resultsAgree h i
  | validating => exact validatingPeriod_resultsAgree h i
  | advance => exact advancePeriod_resultsAgree h i

/-- A reset lists nothing in RXB, whatever stood there (log 6). -/
theorem resetPeriod_resultsAgree (i : Inputs) : ResultsAgree (resetPeriod i s) (resetPeriod i u) := by
  obtain ⟨m, rfl⟩ := exists_withBuffer_of_sameButUnread h
  exact .next ⟨rfl, fun _ _ => rfl, rfl, rfl⟩

theorem runPeriod_resultsAgree (i : Inputs) : ResultsAgree (runPeriod i s) (runPeriod i u) := by
  obtain ⟨m, rfl⟩ := exists_withBuffer_of_sameButUnread h
  refine (exec_resultsAgree (IgnoresBuffer.beginPeriod.sameButUnread h) _).andThen fun _ _ h1 => ?_
  refine (commandPhase_resultsAgree h1 i).andThen fun _ _ h2 => ?_
  refine (acquire_resultsAgree h2 s.fsm i).andThen fun _ _ h3 => ?_
  exact IgnoresBuffer.endPeriod.resultsAgree h3

theorem step_resultsAgree : ResultsAgree (step s) (step u) := by
  have hreset := resetPeriod_resultsAgree h s.input
  have hrun := runPeriod_resultsAgree h s.input
  obtain ⟨m, rfl⟩ := exists_withBuffer_of_sameButUnread h
  unfold step clockPeriod
  rw [State.withBuffer_input]
  split
  · exact hreset
  · exact hrun

end Periods

/-- Settles O59: every part of a period keeps the agreement of two states on the bytes below rx_n. -/
theorem unreadBufferBytesNeverMatter : Obligations.UnreadBufferBytesNeverMatter :=
  fun _ _ h => (step_resultsAgree h).next_or_same_stop

end Sys2Proof.Machine
end

section
/-! PROOFS. What the register space shows (10_state.md R48, R49, R53), the reset values (R56) and the code numbers (R34). -/

namespace Sys2Proof.Machine

@[simp] theorem low16_toNat (v : Half) : (low16 v).toNat = v.toNat :=
  BitVec.toNat_setWidth_of_le (by decide)

theorem toNat_append {m n : Nat} (a : BitVec m) (b : BitVec n) : (a ++ b).toNat = a.toNat * 2 ^ n + b.toNat :=
  toNat_concat a b rfl

@[simp] theorem bit_toNat (b : Bool) : (bit b).toNat = b.toNat := BitVec.toNat_ofBool b

theorem diagWord_toNat (v : Half) (p : Bool) : (diagWord v p).toNat = v.toNat + 65536 * p.toNat := by
  simp only [diagWord, toNat_append, bit_toNat, BitVec.toNat_ofNat]
  omega

theorem State.posCode_toNat (s : State) : s.posCode.toNat = s.pos.val := by
  have := s.pos.isLt
  simp only [State.posCode, BitVec.toNat_ofNat]
  omega

theorem State.busy_toNat (s : State) : (!s.cmdReady).toNat = if s.fsm = .idle then 0 else 1 := by
  by_cases h : s.fsm = .idle <;> simp [State.cmdReady, h]

/-- STATUS as the sum of its fields at their places (10_state.md R49). -/
theorem State.statusWord_toNat (s : State) :
    s.statusWord.toNat = s.fsm.code.toNat + 8 * (if s.fsm = .idle then 0 else 1) + 16 * s.pos.val
      + 128 * s.resValid.toNat + 256 * s.lastOutcome.code.toNat + 4096 * s.lastReason.code.toNat
      + 65536 * (classCode s.lastClass).toNat := by
  simp only [State.statusWord, toNat_append, bit_toNat, State.posCode_toNat, State.busy_toNat, BitVec.toNat_ofNat]
  omega

/-- The addresses that R48 gives in ranges, and the reserved ones. -/
theorem State.readReg_range (s : State) {a : RegAddr} (h : 0x0D ≤ a.toNat ∧ a.toNat ≤ 0x0F ∨ 0x18 ≤ a.toNat) :
    s.readReg a
      = if 0x18 ≤ a.toNat ∧ a.toNat ≤ 0x1B then low16 (s.res.taux.toList.getD (a.toNat - 0x18) 0#16)
        else if 0x1C ≤ a.toNat ∧ a.toNat ≤ 0x2B then low16 (s.res.cell.toList.getD (a.toNat - 0x1C) 0#16)
        else 0#32 := by
  unfold State.readReg
  generalize a.toNat = n at h
  split
  case h_22 => rfl
  all_goals omega

theorem getD_toList {n : Nat} (v : Vector Half n) (j : Fin n) : v.toList.getD j.val 0#16 = v[j.val] := by
  rw [List.getD_eq_getElem _ _ (by simp), Vector.getElem_toList]

theorem State.readReg_taux (s : State) (j : Fin 4) :
    s.readReg (BitVec.ofNat 6 (0x18 + j.val)) = low16 s.res.taux[j.val] := by
  have hj := j.isLt
  have ha : (BitVec.ofNat 6 (0x18 + j.val)).toNat = 0x18 + j.val := Nat.mod_eq_of_lt (by omega)
  rw [s.readReg_range (.inr (by omega)), ha, if_pos ⟨by omega, by omega⟩, Nat.add_sub_cancel_left, getD_toList]

theorem State.readReg_cell (s : State) (i : Fin 16) :
    s.readReg (BitVec.ofNat 6 (0x1C + i.val)) = low16 s.res.cell[i.val] := by
  have hi := i.isLt
  have ha : (BitVec.ofNat 6 (0x1C + i.val)).toNat = 0x1C + i.val := Nat.mod_eq_of_lt (by omega)
  rw [s.readReg_range (.inr (by omega)), ha, if_neg (by omega), if_pos ⟨by omega, by omega⟩, Nat.add_sub_cancel_left,
    getD_toList]

theorem State.readReg_reserved (s : State) {a : RegAddr}
    (h : 0x0D ≤ a.toNat ∧ a.toNat ≤ 0x0F ∨ 0x2C ≤ a.toNat) : s.readReg a = 0#32 := by
  rw [s.readReg_range (by omega), if_neg (by omega), if_neg (by omega)]

/-- Settles O13: the words of the map one by one, the two ranges, the reserved addresses. -/
theorem registerMapReads : Obligations.RegisterMapReads := by
  intro s
  have wide : ∀ {n : Nat} (v : BitVec n), n ≤ 32 → (v.setWidth 32).toNat = v.toNat := fun _ hn =>
    BitVec.toNat_setWidth_of_le hn
  exact ⟨s.statusWord_toNat, low16_toNat _, wide _ (by decide), low16_toNat _, low16_toNat _, wide _ (by decide),
    wide _ (by decide), low16_toNat _, low16_toNat _, diagWord_toNat _ _, diagWord_toNat _ _, diagWord_toNat _ _,
    low16_toNat _, low16_toNat _, low16_toNat _, BitVec.toInt_signExtend_of_le (by decide), low16_toNat _, rfl,
    low16_toNat _, low16_toNat _, low16_toNat _, fun j => by rw [s.readReg_taux, low16_toNat],
    fun i => by rw [s.readReg_cell, low16_toNat], fun _ => s.readReg_reserved⟩

/-- Every auxiliary temperature and cell voltage is 0 in the reading after reset. -/
theorem Reading.zero_taux : ∀ j : Fin 4, Reading.zero.taux[j.val] = 0#16 := by decide
theorem Reading.zero_cell : ∀ i : Fin 16, Reading.zero.cell[i.val] = 0#16 := by decide

/-- The three codes that are 15 after reset stand side by side in STATUS; no parameter is shown there. -/
theorem State.reset_status (p : Params) : (State.resetWith p).readReg 0x00#6 = 0x000FFF00#32 := by
  refine BitVec.eq_of_toNat_eq ((State.resetWith p).statusWord_toNat.trans ?_)
  simp [Block.reset, Fsm.code, RespCode.code, Reason.code, classCode]

/-- Settles O20: each value is the one Block.reset writes; STATUS shows no parameter. -/
theorem resetValues : Obligations.ResetValues := by
  refine ⟨fun p => ?_, rfl, State.reset_status⟩
  exact ⟨rfl, rfl, rfl, rfl, rfl, rfl, rfl, rfl, rfl, rfl, rfl, rfl, rfl, rfl, rfl, rfl, rfl, rfl, rfl,
    Reading.zero_taux, Reading.zero_cell, rfl, rfl, rfl, rfl, rfl, rfl, rfl, rfl, rfl, rfl, rfl, rfl, rfl, rfl, rfl, rfl⟩

/-- Settles O22, by computing the four tables. -/
theorem codeNumbers : Obligations.CodeNumbers := ⟨rfl, rfl, rfl, rfl⟩

end Sys2Proof.Machine
end

section
/-! PROOFS. What a register access carries and does (20_memory.md R82, R84; 30_encoding.md R105). -/

namespace Sys2Proof.Machine

/-- The register port with reg_we 0 carries REG.RD; reg_wdata is ignored. -/
theorem decode_reg_read (a : RegAddr) (d : Word) : decode (.reg false a d) = .regRd a := rfl

/-- REG.RD is the sampling of reg_rdata, and has no acceptance condition (45_host_commands.md R303). -/
theorem exec_regRd (a : RegAddr) (s : State) : exec (.regRd a) s = .next (s.sampleReg a) := rfl

/-- Settles O12: REG.RD only samples reg_rdata, which stands outside the block. -/
theorem registerReadHasNoSideEffect : Obligations.RegisterReadHasNoSideEffect :=
  ⟨decode_reg_read, fun a s => ⟨exec_regRd a s, s.sampleReg_toBlock a⟩⟩

end Sys2Proof.Machine
end

section
/-! PROOFS. The encoding (30_encoding.md R100..R108): every command word has one of nine forms, eight commands with
RSV = 0 and the illegal words; what decode and encode make of each form. -/

namespace Sys2Proof

/-! The words of the eight commands decode to them (30_encoding.md R102, R103). -/

@[simp] theorem decodeCmd_nop (arg : Half) : decodeCmd (cmdWordOf 0x0#4 arg) = .nop := decodeCmd_cmdWordOf _ _
@[simp] theorem decodeCmd_poll (arg : Half) : decodeCmd (cmdWordOf 0x1#4 arg) = .poll := decodeCmd_cmdWordOf _ _
@[simp] theorem decodeCmd_lchkGen (arg : Half) : decodeCmd (cmdWordOf 0x2#4 arg) = .lchkGen (argLength arg) :=
  decodeCmd_cmdWordOf _ _
@[simp] theorem decodeCmd_lchkChk (arg : Half) : decodeCmd (cmdWordOf 0x3#4 arg) = .lchkChk arg :=
  decodeCmd_cmdWordOf _ _
@[simp] theorem decodeCmd_fchkClr (arg : Half) : decodeCmd (cmdWordOf 0x4#4 arg) = .fchkClr := decodeCmd_cmdWordOf _ _
@[simp] theorem decodeCmd_fchkAdd (arg : Half) : decodeCmd (cmdWordOf 0x5#4 arg) = .fchkAdd (argChar arg) :=
  decodeCmd_cmdWordOf _ _
@[simp] theorem decodeCmd_fchkGet (arg : Half) : decodeCmd (cmdWordOf 0x6#4 arg) = .fchkGet := decodeCmd_cmdWordOf _ _
@[simp] theorem decodeCmd_fchkChk (arg : Half) : decodeCmd (cmdWordOf 0x7#4 arg) = .fchkChk arg :=
  decodeCmd_cmdWordOf _ _

/-- The illegal words by their fields (30_encoding.md R104). -/
theorem wordIsIllegal_iff_fields {w : CmdWord} :
    wordIsIllegal w = true ↔ 8 ≤ (cmdOp w).toNat ∨ cmdRsv w ≠ 0#4 := by
  show (decide (8#4 ≤ cmdOp w) || cmdRsv w != 0#4) = true ↔ _
  simp [BitVec.le_def]

/-- The illegal words by their numbers. -/
theorem wordIsIllegal_iff_toNat {w : CmdWord} :
    wordIsIllegal w = true ↔ 8 ≤ w.toNat / 2 ^ 20 ∨ w.toNat / 2 ^ 16 % 16 ≠ 0 := by
  rw [wordIsIllegal_iff_fields, cmdOp_toNat, ← cmdRsv_toNat, Ne, ← BitVec.toNat_inj, BitVec.toNat_ofNat]

theorem decodeCmd_of_illegal {w : CmdWord} (h : wordIsIllegal w = true) : decodeCmd w = .illegal w := by
  unfold decodeCmd
  by_cases hrsv : cmdRsv w = 0#4
  · have hop : 8 ≤ (cmdOp w).toNat := (wordIsIllegal_iff_fields.1 h).resolve_right (not_not_intro hrsv)
    rw [if_pos hrsv]
    split
    case h_9 => rfl
    all_goals omega
  · exact if_neg hrsv

/-- A word with RSV = 0 is put together from its OP and its ARG. -/
theorem cmdWordOf_op_arg {w : CmdWord} (h : cmdRsv w = 0#4) : cmdWordOf (cmdOp w) (cmdArg w) = w := by
  refine BitVec.eq_of_toNat_eq ?_
  have hrsv : w.toNat / 2 ^ 16 % 16 = 0 := (cmdRsv_toNat w).symm.trans (congrArg BitVec.toNat h)
  rw [cmdWordOf_toNat, cmdOp_toNat, cmdArg_toNat]
  omega

/-- A word whose upper byte is an OP above RSV = 0 is that command's word. -/
theorem eq_cmdWordOf_of_toNat {w : CmdWord} (op : BitVec 4) (h : w.toNat / 2 ^ 16 = 16 * op.toNat) :
    w = cmdWordOf op (cmdArg w) := by
  refine BitVec.eq_of_toNat_eq ?_
  rw [cmdWordOf_toNat, cmdArg_toNat]
  omega

/-- The nine forms of a command word: one for each command of 30_encoding.md R102 and the illegal words of R104. -/
inductive CmdForm : CmdWord → Prop
  | nop (arg : Half) : CmdForm (cmdWordOf 0x0#4 arg)
  | poll (arg : Half) : CmdForm (cmdWordOf 0x1#4 arg)
  | lchkGen (arg : Half) : CmdForm (cmdWordOf 0x2#4 arg)
  | lchkChk (arg : Half) : CmdForm (cmdWordOf 0x3#4 arg)
  | fchkClr (arg : Half) : CmdForm (cmdWordOf 0x4#4 arg)
  | fchkAdd (arg : Half) : CmdForm (cmdWordOf 0x5#4 arg)
  | fchkGet (arg : Half) : CmdForm (cmdWordOf 0x6#4 arg)
  | fchkChk (arg : Half) : CmdForm (cmdWordOf 0x7#4 arg)
  | illegal {w : CmdWord} (h : wordIsIllegal w = true) : CmdForm w

theorem legalOp_cases : ∀ op : BitVec 4, op.toNat < 8 →
    op = 0x0#4 ∨ op = 0x1#4 ∨ op = 0x2#4 ∨ op = 0x3#4 ∨ op = 0x4#4 ∨ op = 0x5#4 ∨ op = 0x6#4 ∨ op = 0x7#4 := by
  decide

theorem cmdForm (w : CmdWord) : CmdForm w := by
  by_cases h : wordIsIllegal w = true
  · exact .illegal h
  · rw [wordIsIllegal_iff_fields, not_or, not_not, not_le] at h
    obtain ⟨hop, hrsv⟩ := h
    rw [← cmdWordOf_op_arg hrsv]
    obtain e | e | e | e | e | e | e | e := legalOp_cases _ hop <;> rw [e]
    · exact .nop _
    · exact .poll _
    · exact .lchkGen _
    · exact .lchkChk _
    · exact .fchkClr _
    · exact .fchkAdd _
    · exact .fchkGet _
    · exact .fchkChk _

theorem decodeCmd_wellFormed (w : CmdWord) : (decodeCmd w).wellFormed = true := by
  cases cmdForm w with
  | illegal h => exact (congrArg Instr.wellFormed (decodeCmd_of_illegal h)).trans h
  | nop | poll | lchkGen | lchkChk | fchkClr | fchkAdd | fchkGet | fchkChk => simp [Instr.wellFormed]

theorem decodeCmd_eq_illegal_iff {w : CmdWord} : decodeCmd w = .illegal w ↔ wordIsIllegal w = true :=
  ⟨fun h => (congrArg Instr.wellFormed h).symm.trans (decodeCmd_wellFormed w), decodeCmd_of_illegal⟩

/-! The bits a command ignores (30_encoding.md R103), as masks of ARG below the OP and RSV it keeps. -/

theorem cmdWordOf_and (op : BitVec 4) (arg mask : Half) :
    cmdWordOf op arg &&& (0xF#4 ++ 0xF#4 ++ mask) = cmdWordOf op (arg &&& mask) := by
  have hop : op &&& 0xF#4 = op := BitVec.and_allOnes
  have h : (op ++ 0#4 ++ arg) &&& (0xF#4 ++ 0xF#4 ++ mask) = op ++ 0#4 ++ (arg &&& mask) := by
    rw [BitVec.and_append, BitVec.and_append, hop, BitVec.zero_and]
  exact h

theorem zero_append_argLength (arg : Half) : 0#4 ++ argLength arg = arg &&& 0x0FFF#16 := by
  refine BitVec.eq_of_toNat_eq ?_
  rw [Machine.toNat_append, BitVec.toNat_and, show (0x0FFF#16).toNat = 2 ^ 12 - 1 from rfl,
    Nat.and_two_pow_sub_one_eq_mod]
  simp [argLength]

theorem zero_append_argChar (arg : Half) : 0#8 ++ argChar arg = arg &&& 0x00FF#16 := by
  refine BitVec.eq_of_toNat_eq ?_
  rw [Machine.toNat_append, BitVec.toNat_and, show (0x00FF#16).toNat = 2 ^ 8 - 1 from rfl,
    Nat.and_two_pow_sub_one_eq_mod]
  simp [argChar]

@[simp] theorem cmdWordOf_and_opcode (op : BitVec 4) (arg : Half) :
    cmdWordOf op arg &&& 0xFF0000#24 = cmdWordOf op 0#16 :=
  (cmdWordOf_and op arg 0#16).trans (congrArg (cmdWordOf op) BitVec.and_zero)

@[simp] theorem cmdWordOf_and_length (op : BitVec 4) (arg : Half) :
    cmdWordOf op arg &&& 0xFF0FFF#24 = cmdWordOf op (0#4 ++ argLength arg) :=
  (cmdWordOf_and op arg 0x0FFF#16).trans (congrArg (cmdWordOf op) (zero_append_argLength arg).symm)

@[simp] theorem cmdWordOf_and_char (op : BitVec 4) (arg : Half) :
    cmdWordOf op arg &&& 0xFF00FF#24 = cmdWordOf op (0#8 ++ argChar arg) :=
  (cmdWordOf_and op arg 0x00FF#16).trans (congrArg (cmdWordOf op) (zero_append_argChar arg).symm)

theorem and_allBits (w : CmdWord) : w &&& 0xFFFFFF#24 = w := BitVec.and_allOnes

/-- Settles O23: decode of each constructor's word, the ignored bits dropped again by the operand's window. -/
theorem decodeEncodeRoundTrip : Obligations.DecodeEncodeRoundTrip := by
  intro i hi
  cases i with
  | nop => exact decodeCmd_nop _
  | poll => exact decodeCmd_poll _
  | lchkGen v => exact (decodeCmd_lchkGen _).trans (congrArg Instr.lchkGen (argLength_append 0#4 v))
  | lchkChk f => exact decodeCmd_lchkChk f
  | fchkClr => exact decodeCmd_fchkClr _
  | fchkAdd b => exact (decodeCmd_fchkAdd _).trans (congrArg Instr.fchkAdd (argChar_append 0#8 b))
  | fchkGet => exact decodeCmd_fchkGet _
  | fchkChk c => exact decodeCmd_fchkChk c
  | illegal w => exact decodeCmd_of_illegal hi
  | regRd a => rfl
  | regWr a d => rfl

/-- Settles O24, form by form: the mask of each command leaves its OP and its operand. -/
theorem encodeDecodeKeepsOperandBits : Obligations.EncodeDecodeKeepsOperandBits := by
  refine fun w => ⟨decodeCmd_wellFormed w, ?_⟩
  cases cmdForm w with
  | nop | poll | lchkGen | fchkClr | fchkAdd | fchkGet => simp [encode]
  | lchkChk | fchkChk => simp [encode, and_allBits]
  | illegal h => simp [encode, decodeCmd_of_illegal h, and_allBits]

/-! The operands as numbers. -/

theorem cmdArg_eq_ofNat (w : CmdWord) : cmdArg w = BitVec.ofNat 16 (w.toNat % 2 ^ 16) :=
  BitVec.eq_of_toNat_eq (by simp [cmdArg_toNat])

theorem argLength_cmdArg (w : CmdWord) : argLength (cmdArg w) = BitVec.ofNat 12 (w.toNat % 2 ^ 12) := by
  refine BitVec.eq_of_toNat_eq ?_
  simp only [argLength, BitVec.extractLsb'_toNat, Nat.shiftRight_zero, cmdArg_toNat, BitVec.toNat_ofNat]
  omega

theorem argChar_cmdArg (w : CmdWord) : argChar (cmdArg w) = BitVec.ofNat 8 (w.toNat % 2 ^ 8) := by
  refine BitVec.eq_of_toNat_eq ?_
  simp only [argChar, BitVec.extractLsb'_toNat, Nat.shiftRight_zero, cmdArg_toNat, BitVec.toNat_ofNat]
  omega

/-- A word decodes as its OP says, by the number of its upper byte. -/
theorem decodeCmd_of_toNat {w : CmdWord} (op : BitVec 4) {i : Instr} (hi : decodeCmd (cmdWordOf op (cmdArg w)) = i)
    (h : w.toNat / 2 ^ 16 = 16 * op.toNat) : decodeCmd w = i :=
  (congrArg decodeCmd (eq_cmdWordOf_of_toNat op h)).trans hi

namespace Machine

/-- ILLEGAL in IDLE writes the response and nothing else (45_host_commands.md R302). -/
theorem exec_illegal_idle (w : CmdWord) {s : State} (hs : s.fsm = .idle) :
    exec (.illegal w) s = .next (s.respond .illegal 0#16) :=
  congrArg Host.Outcome.next (State.whenAccepted_idle _ hs)

/-- A command other than POLL completes at the edge of its acceptance. -/
theorem exec_command_completes {w : CmdWord} {s t : State} (hs : s.fsm = .idle) (h : exec (decodeCmd w) s = .next t)
    (hw : decodeCmd w ≠ .poll) : t.fsm = .idle ∧ t.respValid = true := by
  obtain ⟨c, d, a, -, -, -, rfl⟩ | ⟨hpoll, -⟩ := exec_command_idle hs h
  · exact ⟨hs, rfl⟩
  · exact absurd hpoll hw

/-- POLL completes at the edge of its acceptance when it stays in IDLE, and else leaves resp_valid alone. -/
theorem State.startPoll_completion (s : State) (link : Bool) :
    if (s.startPoll link).fsm = .idle then (s.startPoll link).respValid = true
    else (s.startPoll link).respValid = s.respValid := by
  obtain ⟨-, e⟩ | ⟨-, -, e⟩ | ⟨-, -, e⟩ := s.startPoll_cases link <;> rw [e] <;> rfl

theorem exec_poll_completion {w : CmdWord} {s t : State} (hs : s.fsm = .idle) (h : exec (decodeCmd w) s = .next t)
    (hw : decodeCmd w = .poll) : if t.fsm = .idle then t.respValid = true else t.respValid = s.respValid := by
  obtain ⟨-, -, -, -, hne, -⟩ | ⟨-, rfl⟩ := exec_command_idle hs h
  · exact absurd hw hne
  · exact s.startPoll_completion _

/-- Settles O25: the illegal words by their numbers, the commands by the number of the upper byte, then the completion. -/
theorem everyWordIsCommandOrIllegal : Obligations.EveryWordIsCommandOrIllegal := by
  intro w
  refine ⟨decodeCmd_eq_illegal_iff.trans wordIsIllegal_iff_toNat,
    decodeCmd_of_toNat 0x0#4 (decodeCmd_nop _), decodeCmd_of_toNat 0x1#4 (decodeCmd_poll _),
    decodeCmd_of_toNat 0x2#4 (by rw [decodeCmd_lchkGen, argLength_cmdArg]),
    decodeCmd_of_toNat 0x3#4 (by rw [decodeCmd_lchkChk, cmdArg_eq_ofNat]),
    decodeCmd_of_toNat 0x4#4 (decodeCmd_fchkClr _),
    decodeCmd_of_toNat 0x5#4 (by rw [decodeCmd_fchkAdd, argChar_cmdArg]),
    decodeCmd_of_toNat 0x6#4 (decodeCmd_fchkGet _),
    decodeCmd_of_toNat 0x7#4 (by rw [decodeCmd_fchkChk, cmdArg_eq_ofNat]), fun s hs => ?_⟩
  obtain ⟨t, ht⟩ := exec_completes (decodeCmd w) s
  refine ⟨t, ht, fun hw => ?_, exec_command_completes hs ht, exec_poll_completion hs ht⟩
  rw [hw, exec_illegal_idle w hs] at ht
  exact (Host.Outcome.next.inj ht).symm

end Machine

/-- Settles O26, by computing decode of the ten words. -/
theorem decodesTheSpecsWords : Obligations.DecodesTheSpecsWords :=
  ⟨rfl, rfl, rfl, rfl, rfl, rfl, rfl, rfl, rfl, rfl⟩

end Sys2Proof
end

section
/-! PROOFS. The two functions of the checksum codec as numbers (40_checksum_codec.md R120..R125). -/

namespace Sys2Proof.Machine

open Sys2Proof.Safety

/-- Complementing a 16-bit sum and adding 1 negates its number (40_checksum_codec.md R120). -/
theorem complementSum_toNat_eq_negated16 (sum : Half) : (complementSum sum).toNat = negated16 sum.toNat := by
  rw [complementSum_toNat, negated16, Nat.mod_eq_of_lt sum.isLt]

theorem negated16_mod (n : Nat) : negated16 (n % 65536) = negated16 n := by simp [negated16]

theorem add_negated16_mod (n : Nat) : (n + negated16 n) % 65536 = 0 := by
  unfold negated16
  omega

theorem negated16_of_mod_eq_zero {n : Nat} (h : n % 65536 = 0) : negated16 n = 0 := by simp [negated16, h]

theorem frameChecksum_toNat (bytes : List Byte) : (frameChecksum bytes).toNat = negated16 (byteTotal bytes) := by
  rw [frameChecksum, complementSum_toNat_eq_negated16, byteSum_toNat, negated16_mod, byteTotal]

theorem byteTotal_perm {a b : List Byte} (h : a.Perm b) : byteTotal a = byteTotal b := (h.map _).sum_eq

/-- Settles O27: the wrapping sum is the byte total mod 2^16, and complementing it and adding 1 negates it. -/
theorem frameChecksumNegatesByteSum : Obligations.FrameChecksumNegatesByteSum := fun bytes =>
  ⟨frameChecksum_toNat bytes, by rw [frameChecksum_toNat, add_negated16_mod]⟩

/-- Settles O28: the checksum is a function of the byte total alone. -/
theorem frameChecksumIgnoresOrder : Obligations.FrameChecksumIgnoresOrder := by
  refine ⟨fun a b h => BitVec.eq_of_toNat_eq ?_, fun bytes h => BitVec.eq_of_toNat_eq ?_⟩
  · rw [frameChecksum_toNat, frameChecksum_toNat, byteTotal_perm h]
  · exact (frameChecksum_toNat bytes).trans (negated16_of_mod_eq_zero h)

/-- The top nibble that length_checksum puts above its argument (40_checksum_codec.md R122). -/
def lengthNibble (v : BitVec 12) : BitVec 4 := ~~~(v.extractLsb' 0 4 + v.extractLsb' 4 4 + v.extractLsb' 8 4) + 1#4

theorem lengthChecksum_eq_append (v : BitVec 12) : lengthChecksum v = lengthNibble v ++ v := rfl

theorem lengthChecksum_eq_ofNat (v : BitVec 12) :
    lengthChecksum v = BitVec.ofNat 16 (topNibble v.toNat * 4096 + v.toNat) := by
  have hv := v.isLt
  have ht := topNibble_lt v.toNat
  refine BitVec.eq_of_toNat_eq ((lengthChecksum_toNat v).trans ?_)
  rw [BitVec.toNat_ofNat, topNibble]
  omega

/-- LEN_OK re-applies length_checksum to the low 12 bits (40_checksum_codec.md R124). -/
theorem lenOk_iff (f : Half) : lenOk f = true ↔ lengthChecksum (argLength f) = f := decide_eq_true_iff

/-- Above a 12-bit value one nibble is valid, the one length_checksum puts there (40_checksum_codec.md R125). -/
theorem lenOk_append_iff {top : BitVec 4} {v : BitVec 12} : lenOk (top ++ v) = true ↔ top = lengthNibble v := by
  rw [lenOk_iff, argLength_append, lengthChecksum_eq_append, BitVec.append_left_inj, eq_comm]

theorem lenOk_lengthChecksum (v : BitVec 12) : lenOk (lengthChecksum v) = true := lenOk_append_iff.2 rfl

/-- The low 12 bits of a 16-bit value, as a number. -/
theorem argLength_eq_ofNat (f : Half) : argLength f = BitVec.ofNat 12 (f.toNat % 4096) :=
  BitVec.eq_of_toNat_eq (by simp [argLength])

/-- Settles O29: the valid nibble is the one length_checksum puts above its argument. -/
theorem lengthChecksumRoundTrip : Obligations.LengthChecksumRoundTrip := by
  refine ⟨fun f => ?_, fun v => ?_, fun v => ⟨lengthNibble v, lenOk_append_iff.2 rfl, fun _ => lenOk_append_iff.1⟩⟩
  · rw [lenOk_iff, argLength_eq_ofNat]
  · have hv := v.isLt
    rw [lengthChecksum_eq_append, toNat_append]
    omega

end Sys2Proof.Machine
end

section
/-! PROOFS. The six codec commands (40_checksum_codec.md R130..R135): what each does in IDLE, and the checksum that FCHK.ADD
and FCHK.GET compute between them. -/

namespace Sys2Proof.Machine

open Sys2Proof.Safety

section Accepted
variable {s : State} (hs : s.fsm = .idle)
include hs

theorem exec_lchkGen_idle (v : BitVec 12) : exec (.lchkGen v) s = .next (s.respond .ok (lengthChecksum v)) :=
  congrArg Host.Outcome.next (State.whenAccepted_idle _ hs)

theorem exec_lchkChk_idle (f : Half) : exec (.lchkChk f) s = .next (s.respond .ok (flagData (lenOk f))) :=
  congrArg Host.Outcome.next (State.whenAccepted_idle _ hs)

theorem exec_fchkClr_idle : exec .fchkClr s = .next (State.respond { s with facc := 0#16 } .ok 0#16) :=
  congrArg Host.Outcome.next (State.whenAccepted_idle _ hs)

theorem exec_fchkAdd_idle (b : Byte) :
    exec (.fchkAdd b) s = .next (State.respond { s with facc := s.facc + b.setWidth 16 } .ok 0#16) :=
  congrArg Host.Outcome.next (State.whenAccepted_idle _ hs)

theorem exec_fchkGet_idle : exec .fchkGet s = .next (s.respond .ok (complementSum s.facc)) :=
  congrArg Host.Outcome.next (State.whenAccepted_idle _ hs)

theorem exec_fchkChk_idle (c : Half) : exec (.fchkChk c) s = .next (s.respond .ok (flagData (-s.facc = c))) :=
  congrArg Host.Outcome.next (State.whenAccepted_idle _ hs)

end Accepted

/-- The response to a check as a choice between two numbers. -/
theorem flagData_decide (c : Prop) [Decidable c] : flagData (decide c) = if c then 1#16 else 0#16 := by
  by_cases h : c <;> simp [flagData, h]

theorem complementSum_eq_ofNat (sum : Half) : complementSum sum = BitVec.ofNat 16 (negated16 sum.toNat) := by
  rw [← complementSum_toNat_eq_negated16, BitVec.ofNat_toNat, BitVec.setWidth_eq]

/-- The comparison of FCHK.CHK is one of numbers. -/
theorem neg_eq_iff_negated16 (sum c : Half) : -sum = c ↔ negated16 sum.toNat = c.toNat := by
  rw [← BitVec.toNat_inj, ← complementSum_toNat_eq_negated16, complementSum, BitVec.neg_eq_not_add]

theorem add_byte_eq_ofNat (sum : Half) (b : Byte) :
    sum + b.setWidth 16 = BitVec.ofNat 16 ((sum.toNat + b.toNat) % 65536) := by
  have hb := b.isLt
  refine BitVec.eq_of_toNat_eq ?_
  simp only [BitVec.toNat_add, BitVec.toNat_setWidth, BitVec.toNat_ofNat]
  omega

/-- Settles O3: the LENID word of ARG[11:0], as a number. -/
theorem lchkGenRespondsLenidWord : Obligations.LchkGenRespondsLenidWord := by
  refine ⟨fun ignored v => ?_, fun v s hs => ?_⟩
  · exact (decodeCmd_lchkGen _).trans (congrArg Instr.lchkGen (argLength_append ignored v))
  · rw [exec_lchkGen_idle hs, lengthChecksum_eq_ofNat]
    rfl

/-- Settles O4: LEN_OK is the comparison of the top nibble. -/
theorem lchkChkTestsLenidWord : Obligations.LchkChkTestsLenidWord := by
  refine ⟨decodeCmd_lchkChk, fun f s hs => ?_⟩
  rw [exec_lchkChk_idle hs, lenOk_eq, flagData_decide]
  rfl

/-- Settles O5: FCHK.CLR writes facc and the response. -/
theorem fchkClrClearsAccumulator : Obligations.FchkClrClearsAccumulator :=
  ⟨decodeCmd_fchkClr, fun _ => exec_fchkClr_idle⟩

/-- Settles O6: the 16-bit addition as one of numbers. -/
theorem fchkAddAddsCharacter : Obligations.FchkAddAddsCharacter := by
  refine ⟨fun ignored b => ?_, fun b s hs => ?_⟩
  · exact (decodeCmd_fchkAdd _).trans (congrArg Instr.fchkAdd (argChar_append ignored b))
  · rw [exec_fchkAdd_idle hs, add_byte_eq_ofNat]
    rfl

/-- Settles O8: the negated accumulator against the operand, as numbers. -/
theorem fchkChkComparesChecksum : Obligations.FchkChkComparesChecksum := by
  refine ⟨decodeCmd_fchkChk, fun c s hs => ?_⟩
  rw [exec_fchkChk_idle hs, flagData_decide]
  simp only [neg_eq_iff_negated16]
  rfl

/-- FCHK.ADD of each byte and then FCHK.GET, from any accumulator (40_checksum_codec.md R133, R134). -/
theorem execAll_adds_get (bytes : List Byte) {s : State} (hs : s.fsm = .idle) :
    ∃ t, execAll (bytes.map .fchkAdd ++ [.fchkGet]) s = .next t ∧ t.respValid = true ∧ t.respCode = .ok
      ∧ t.respData = complementSum (bytes.foldl (fun sum b => sum + b.setWidth 16) s.facc) := by
  induction bytes generalizing s with
  | nil => exact ⟨_, congrArg (andThen · (execAll [])) (exec_fchkGet_idle hs), rfl, rfl, rfl⟩
  | cons b bytes ih =>
    obtain ⟨t, ht, hresp⟩ := ih (s := State.respond { s with facc := s.facc + b.setWidth 16 } .ok 0#16) hs
    exact ⟨t, andThen_eq_next.2 ⟨_, exec_fchkAdd_idle hs b, ht⟩, hresp⟩

/-- From an accumulator of 0 that is the frame checksum of the bytes. -/
theorem execAll_adds_get_of_clear (bytes : List Byte) {s : State} (hs : s.fsm = .idle) (hf : s.facc = 0#16) :
    ∃ t, execAll (bytes.map .fchkAdd ++ [.fchkGet]) s = .next t ∧ t.respValid = true ∧ t.respCode = .ok
      ∧ t.respData = frameChecksum bytes := by
  have h := execAll_adds_get bytes hs
  rwa [hf] at h

/-- Settles O7: FCHK.CLR and the reset each leave an accumulator of 0. -/
theorem fchkGetRespondsFrameChecksum : Obligations.FchkGetRespondsFrameChecksum := by
  refine ⟨decodeCmd_fchkGet, fun s hs => ?_, fun bytes s hs => ?_, fun bytes p => ?_⟩
  · rw [exec_fchkGet_idle hs, complementSum_eq_ofNat]
    rfl
  · obtain ⟨t, ht, hresp⟩ :=
      execAll_adds_get_of_clear bytes (s := State.respond { s with facc := 0#16 } .ok 0#16) hs rfl
    exact ⟨t, andThen_eq_next.2 ⟨_, exec_fchkClr_idle hs, ht⟩, hresp⟩
  · exact execAll_adds_get_of_clear bytes rfl rfl

end Sys2Proof.Machine
end

section
/-! PROOFS. A frame built with the two functions of the codec passes every check (40_checksum_codec.md R136;
42_frame_validation.md R180): each character, digit group and slice that the validator reads is found in its segment. -/

namespace Sys2Proof.Machine

open Sys2Proof.Safety

/-! Reading behind a segment whose length is known. -/

theorem charAt_append_right {a : List Byte} {n : Nat} (ha : a.length = n) (b : List Byte) (k : Nat) :
    charAt (a ++ b) (n + k) = charAt b k := by
  subst ha
  rw [charAt, List.getD_append_right _ _ _ _ (Nat.le_add_right ..), Nat.add_sub_cancel_left, charAt]

theorem charAt_append_left {a : List Byte} {k : Nat} (hk : k < a.length) (b : List Byte) :
    charAt (a ++ b) k = charAt a k := List.getD_append _ _ _ _ hk

/-! The text of a 16-bit value. -/

/-- The digit character of a number below 16 is a hex digit of that value. -/
theorem hexChar_digitChar : ∀ n < 16, hexChar (digitChar n) = true ∧ digitValue (digitChar n) = n := by decide

theorem hexChar_of_mem_hexText {x : Half} {b : Byte} (h : b ∈ hexText x) : hexChar b = true := by
  have hx := x.isLt
  simp only [hexText, List.mem_cons, List.not_mem_nil, or_false] at h
  obtain rfl | rfl | rfl | rfl := h <;> exact (hexChar_digitChar _ (by omega)).1

theorem hex4_hexText (x : Half) :
    hex4 (digitChar (x.toNat / 4096)) (digitChar (x.toNat / 256 % 16)) (digitChar (x.toNat / 16 % 16))
      (digitChar (x.toNat % 16)) = x := by
  have hx := x.isLt
  obtain ⟨h0, v0⟩ := hexChar_digitChar (x.toNat / 4096) (by omega)
  obtain ⟨h1, v1⟩ := hexChar_digitChar (x.toNat / 256 % 16) (by omega)
  obtain ⟨h2, v2⟩ := hexChar_digitChar (x.toNat / 16 % 16) (by omega)
  obtain ⟨h3, v3⟩ := hexChar_digitChar (x.toNat % 16) (by omega)
  refine BitVec.eq_of_toNat_eq ?_
  rw [hex4_toNat h0 h1 h2 h3, v0, v1, v2, v3]
  omega

section HexText
variable {a : List Byte} {n : Nat} (ha : a.length = n) (x : Half) (c : List Byte)
include ha

/-- The text of a value is read back as that value. -/
theorem hexAt_hexText : hexAt (a ++ (hexText x ++ c)) n = x := by
  have h := charAt_append_right ha (hexText x ++ c)
  show hex4 (charAt _ (n + 0)) (charAt _ (n + 1)) (charAt _ (n + 2)) (charAt _ (n + 3)) = x
  rw [h, h, h, h]
  exact hex4_hexText x

theorem hexDigitsAt_hexText : hexDigitsAt (a ++ (hexText x ++ c)) n = true := by
  subst ha
  have hs : slice (a ++ (hexText x ++ c)) a.length (a.length + 4) = hexText x := by
    rw [slice, List.drop_append_length, Nat.add_sub_cancel_left]
    rfl
  rw [hexDigitsAt, hs, List.all_eq_true]
  exact fun b hb => (isHex_eq b).trans (hexChar_of_mem_hexText hb)

end HexText

/-! The validator's checks. -/

/-- The checks of 42_frame_validation.md R180, for a frame of at least the 146 bytes that the length checks ask for. -/
structure PassesChecks (p : Params) (t : List Byte) : Prop where
  length : 146 ≤ t.length
  ascii : hasNonAscii t = false
  status : cid2Of t = p.okCode
  lenidHex : hexDigitsAt t 9 = true
  lenid : lenOk (lenidOf t) = true
  fchkHex : hexDigitsAt t (t.length - 5) = true
  fchk : fchkOf t = calcOf t
  windows : windowsHex t = true

theorem PassesChecks.valid {p : Params} {t : List Byte} (h : PassesChecks p t) :
    (validate p (some t)).reason = .valid := by
  have hn := h.length
  have hmin : ¬ t.length < Config.minFrameLen := by unfold Config.minFrameLen; omega
  have hbody : ¬ t.length - 18 < Config.bodyMin := by unfold Config.bodyMin; omega
  have hcap : ¬ t.length - 18 < Config.capEnd := by unfold Config.capEnd; omega
  simp [validate, validateFrame, validateTail, h.ascii, h.status, h.lenidHex, h.lenid, h.fchkHex, h.fchk, h.windows,
    hmin, hbody, hcap]

/-- The frame ends in its only byte that is not tested (42_frame_validation.md R183). -/
theorem hasNonAscii_append_delim {u : List Byte} (h : ∀ b ∈ u, b.toNat < 0x80) :
    hasNonAscii (u ++ [Config.delim]) = false := by
  rw [hasNonAscii, List.length_append, List.length_singleton, Nat.add_sub_cancel, List.take_left, List.any_eq_false]
  intro b hb
  rw [decide_eq_true_iff, BitVec.le_def]
  exact Nat.not_le.2 (h b hb)

/-- The decoded windows by their body offsets (42_frame_validation.md R196). -/
theorem windowsHex_of_inWindow {t : List Byte} (hn : 146 ≤ t.length)
    (h : ∀ o, inWindow o → hexChar (charAt t (13 + o)) = true) : windowsHex t = true := by
  have hw : ∀ lo hi, (∀ o, lo ≤ o → o < hi → inWindow o) → allHexChars t (13 + lo) (13 + hi) = true := by
    refine fun lo hi hin => allHexChars_iff.2 fun x hlo hhi => ?_
    obtain ⟨o, rfl⟩ := Nat.exists_eq_add_of_le (show 13 ≤ x by omega)
    exact h o (hin o (by omega) (by omega))
  simp only [windowsHex_eq hn, Bool.and_eq_true]
  refine ⟨⟨⟨⟨hw 2 10 ?_, hw 12 88 ?_⟩, hw 90 110 ?_⟩, hw 114 118 ?_⟩, hw 124 128 ?_⟩ <;>
    (intro o; unfold inWindow; omega)

/-! The built frame. -/

theorem ascii_of_hexChar {b : Byte} (h : hexChar b = true) : b.toNat < 0x80 := by
  simp only [hexChar, decide_eq_true_eq] at h
  omega

theorem ascii_of_legalCodeChar {b : Byte} (h : legalCodeChar b = true) : b.toNat < 0x80 := by
  simp only [legalCodeChar, Bool.and_eq_true, decide_eq_true_eq, BitVec.le_def, BitVec.toNat_ofNat] at h
  omega

/-- The characters of a legal ok code are ASCII (00_scope.md R8). -/
theorem okCode_ascii {p : Params} (h : p.legal = true) :
    (p.okCode.extractLsb' 8 8).toNat < 0x80 ∧ (p.okCode.extractLsb' 0 8).toNat < 0x80 := by
  simp only [Params.legal, Bool.and_eq_true] at h
  obtain ⟨⟨⟨⟨⟨⟨⟨-, hhi⟩, hlo⟩, -⟩, -⟩, -⟩, -⟩, -⟩ := h
  exact ⟨ascii_of_legalCodeChar hhi, ascii_of_legalCodeChar hlo⟩

section Built
variable (p : Params) (marker : Byte) (header body : List Byte)

/-- The LENID word of the body's length. -/
def builtLenid : Half := lengthChecksum (BitVec.ofNat 12 body.length)

/-- What stands before the LENID word: marker, header, ok code. -/
def builtHead : List Byte := marker :: (header ++ [p.okCode.extractLsb' 8 8, p.okCode.extractLsb' 0 8])

/-- What stands behind the checksum span. -/
def builtTail : List Byte := hexText (frameChecksum (builtSpan p header body)) ++ [Config.delim]

theorem builtFrame_eq_span :
    builtFrame p marker header body = (marker :: builtSpan p header body) ++ builtTail p header body := by
  simp [builtFrame, builtTail]

theorem builtFrame_eq_head : builtFrame p marker header body
    = builtHead p marker header ++ (hexText (builtLenid body) ++ (body ++ builtTail p header body)) := by
  simp [builtFrame_eq_span, builtSpan, builtHead, builtLenid]

variable {p marker header body}

theorem builtHead_length (hh : header.length = 6) : (builtHead p marker header).length = 9 := by simp [builtHead, hh]

theorem builtSpan_length (hh : header.length = 6) : (builtSpan p header body).length = body.length + 12 := by
  simp only [builtSpan, hexText, List.length_append, List.length_cons, List.length_nil, hh]
  omega

theorem builtTail_length : (builtTail p header body).length = 5 := rfl

theorem builtFrame_length (hh : header.length = 6) : (builtFrame p marker header body).length = body.length + 18 := by
  rw [builtFrame_eq_span, List.length_append, List.length_cons, builtSpan_length hh, builtTail_length]

theorem builtFrame_length_sub_five :
    (builtFrame p marker header body).length - 5 = (marker :: builtSpan p header body).length := by
  rw [builtFrame_eq_span, List.length_append, builtTail_length, Nat.add_sub_cancel]

theorem cid2Of_builtFrame (hh : header.length = 6) : cid2Of (builtFrame p marker header body) = p.okCode := by
  have hl : (marker :: header).length = 7 := by rw [List.length_cons, hh]
  have h : builtFrame p marker header body = (marker :: header) ++ ([p.okCode.extractLsb' 8 8, p.okCode.extractLsb' 0 8]
      ++ (hexText (builtLenid body) ++ (body ++ builtTail p header body))) := by
    simp [builtFrame_eq_head, builtHead]
  show charAt _ (7 + 0) ++ charAt _ (7 + 1) = p.okCode
  rw [h, charAt_append_right hl, charAt_append_right hl]
  exact BitVec.extractLsb'_append_extractLsb' (w := 8) (len := 8)

theorem lenidOf_builtFrame (hh : header.length = 6) :
    lenidOf (builtFrame p marker header body) = builtLenid body := by
  rw [lenidOf, builtFrame_eq_head, hexAt_hexText (builtHead_length hh)]

theorem fchkOf_builtFrame :
    fchkOf (builtFrame p marker header body) = frameChecksum (builtSpan p header body) := by
  rw [fchkOf, builtFrame_length_sub_five, builtFrame_eq_span, builtTail, hexAt_hexText rfl]

theorem calcOf_builtFrame :
    calcOf (builtFrame p marker header body) = frameChecksum (builtSpan p header body) := by
  rw [calcOf, builtFrame_length_sub_five, builtFrame_eq_span, slice, List.length_cons, Nat.add_sub_cancel, List.cons_append,
    List.drop_one, List.tail_cons, List.take_left]

/-- The body stands at offset 13 (00_scope.md R17). -/
theorem charAt_builtFrame_body (hh : header.length = 6) {o : Nat} (ho : o < body.length) :
    charAt (builtFrame p marker header body) (13 + o) = charAt body o := by
  have hl : (builtHead p marker header ++ hexText (builtLenid body)).length = 13 := by
    rw [List.length_append, builtHead_length hh]
    rfl
  rw [builtFrame_eq_head, ← List.append_assoc, charAt_append_right hl, charAt_append_left ho]

theorem hasNonAscii_builtFrame (hp : p.legal = true) (hm : marker.toNat < 0x80) (hha : ∀ b ∈ header, b.toNat < 0x80)
    (hba : ∀ b ∈ body, b.toNat < 0x80) : hasNonAscii (builtFrame p marker header body) = false := by
  obtain ⟨hhi, hlo⟩ := okCode_ascii hp
  have htext : ∀ x : Half, ∀ b ∈ hexText x, b.toNat < 0x80 := fun _ _ hb => ascii_of_hexChar (hexChar_of_mem_hexText hb)
  refine hasNonAscii_append_delim fun b hb => ?_
  simp only [builtSpan, List.cons_append, List.mem_cons, List.mem_append, List.not_mem_nil, or_false] at hb
  obtain rfl | (((hb | rfl | rfl) | hb) | hb) | hb := hb
  · exact hm
  · exact hha b hb
  · exact hhi
  · exact hlo
  · exact htext _ b hb
  · exact hba b hb
  · exact htext _ b hb

end Built

/-- Settles O34: the built frame passes the checks one by one. -/
theorem builtFrameIsValid : Obligations.BuiltFrameIsValid := by
  intro p marker header body hp hm hh hha hba hmin _ hwin
  have hn : 146 ≤ (builtFrame p marker header body).length := by
    rw [builtFrame_length hh]
    omega
  refine PassesChecks.valid
    { length := hn
      ascii := hasNonAscii_builtFrame hp hm hha hba
      status := cid2Of_builtFrame hh
      lenidHex := ?_
      lenid := ?_
      fchkHex := ?_
      fchk := fchkOf_builtFrame.trans calcOf_builtFrame.symm
      windows := windowsHex_of_inWindow hn fun o ho => ?_ }
  · rw [builtFrame_eq_head, hexDigitsAt_hexText (builtHead_length hh)]
  · rw [lenidOf_builtFrame hh, builtLenid, lenOk_lengthChecksum]
  · rw [builtFrame_length_sub_five, builtFrame_eq_span, builtTail, hexDigitsAt_hexText rfl]
  · have hlt : o < 128 := by
      unfold inWindow at ho
      omega
    rw [charAt_builtFrame_body hh (by omega)]
    exact hwin o ho

end Sys2Proof.Machine
end

section
/-! PROOFS. The telemetry decoder (41_telemetry_decoder.md): its fields are read inside the decoded windows (R163), the
current is signed (R158), and the energy never wraps (R162). -/

namespace Sys2Proof.Machine

open Sys2Proof.Safety

/-- A field reads the four characters from its body offset on (R151). -/
theorem field_eq_hex4 (t : List Byte) (o : Nat) :
    field t o = hex4 (charAt t (13 + o)) (charAt t (13 + (o + 1))) (charAt t (13 + (o + 2)))
      (charAt t (13 + (o + 3))) := rfl

theorem field_congr {f g : List Byte} {o : Nat}
    (h : ∀ x, o ≤ x → x < o + 4 → charAt f (13 + x) = charAt g (13 + x)) : field f o = field g o := by
  rw [field_eq_hex4, field_eq_hex4, h o (by omega) (by omega), h (o + 1) (by omega) (by omega),
    h (o + 2) (by omega) (by omega), h (o + 3) (by omega) (by omega)]

/-- The body offsets whose four characters lie in one decoded window (42_frame_validation.md R196). -/
def fieldInWindow (o : Nat) : Prop :=
  2 ≤ o ∧ o ≤ 6 ∨ 12 ≤ o ∧ o ≤ 84 ∨ 90 ≤ o ∧ o ≤ 106 ∨ o = 114 ∨ o = 124

theorem inWindow_of_fieldInWindow {o x : Nat} (h : fieldInWindow o) (hlo : o ≤ x) (hhi : x < o + 4) : inWindow x := by
  unfold fieldInWindow at h
  unfold inWindow
  omega

/-- The reading depends on the fields inside the windows alone. -/
theorem readingOf_congr {f g : List Byte} (h : ∀ o, fieldInWindow o → field f o = field g o) :
    readingOf f = readingOf g := by
  unfold fieldInWindow at h
  have htaux : ∀ j : Fin 4, field f (90 + 4 * j.val) = field g (90 + 4 * j.val) := fun j => h _ (by omega)
  have hcell : ∀ i : Fin 16, field f (12 + 4 * i.val) = field g (12 + 4 * i.val) := fun i => h _ (by omega)
  simp only [readingOf, capacityOf, htaux, hcell, h 2 (by decide), h 6 (by decide), h 76 (by decide), h 80 (by decide),
    h 84 (by decide), h 106 (by decide), h 114 (by decide), h 124 (by decide)]

/-- Settles O40: every field of the table of R153 lies inside a decoded window. -/
theorem charactersOutsideWindowsDoNotMatter : Obligations.CharactersOutsideWindowsDoNotMatter := by
  intro f g h
  have hfield : ∀ o, fieldInWindow o → field f o = field g o := fun o ho =>
    field_congr fun x hlo hhi => h x (inWindow_of_fieldInWindow ho hlo hhi)
  exact ⟨readingOf_congr hfield, hfield 124 (by unfold fieldInWindow; omega)⟩

/-- CUR_RAW shows the current sign-extended (10_state.md R48). -/
theorem State.readReg_cur (s : State) : s.readReg 0x12#6 = s.res.cur.signExtend 32 := rfl

/-- Two's complement of a 16-bit raw value, with the threshold of R158. -/
theorem half_toInt (v : Half) : v.toInt = if 32767 < v.toNat then (v.toNat : Int) - 65536 else (v.toNat : Int) := by
  rw [BitVec.toInt_eq_toNat_cond]
  by_cases h : 32767 < v.toNat
  · rw [if_pos h, if_neg (by omega)]
    rfl
  · rw [if_neg h, if_pos (by omega)]

/-- Settles O38: sign extension keeps the signed value. -/
theorem currentReadsSigned : Obligations.CurrentReadsSigned := by
  refine ⟨fun f => field_eq_hex4 f 106, fun s => ?_⟩
  rw [s.readReg_cur, BitVec.toInt_signExtend_of_le (by decide), half_toInt]

/-- Two 16-bit factors have a product of at most 65535 × 65535. -/
theorem half_mul_le (a b : Half) : a.toNat * b.toNat ≤ 0xFFFE0001 :=
  Nat.mul_le_mul (Nat.le_of_lt_succ a.isLt) (Nat.le_of_lt_succ b.isLt)

theorem energyOf_toNat (volt cap : Half) : (energyOf volt cap).toNat = volt.toNat * cap.toNat := by
  have hlt : (low16 volt).toNat * (low16 cap).toNat < 2 ^ 32 := by
    rw [low16_toNat, low16_toNat]
    exact (half_mul_le volt cap).trans_lt (by decide)
  have h := BitVec.toNat_mul_of_lt hlt
  rwa [low16_toNat, low16_toNat] at h

/-- Settles O39: the product of two 16-bit values fits the 32-bit register. -/
theorem energyIsExactProduct : Obligations.EnergyIsExactProduct := fun volt cap =>
  ⟨energyOf_toNat volt cap, (energyOf_toNat volt cap).trans_le (half_mul_le volt cap)⟩

end Sys2Proof.Machine
end

section
/-! PROOFS. The validator (42_frame_validation.md): the reason as the first of the spec's ordered checks that fails (R180),
what each diagnostic holds (R197), and what a VALIDATING period makes of the verdict (44_acquisition_fsm.md R261, R263). -/

namespace Sys2Proof.Machine

open Sys2Proof.Safety

/-! The first check that fails. -/

/-- The reason of the first entry that fails, and VALID where none does: the words of 42_frame_validation.md R180. -/
def firstFailing (checks : List (Reason × Bool)) : Reason := ((checks.find? fun c => c.2).map Prod.fst).getD .valid

theorem firstFailing_nil : firstFailing [] = .valid := rfl

theorem firstFailing_cons (r : Reason) (fails : Bool) (checks : List (Reason × Bool)) :
    firstFailing ((r, fails) :: checks) = if fails then r else firstFailing checks := by
  cases fails <;> rfl

/-- Two lists of checks give one reason if each check agrees with its counterpart where all before it pass. -/
theorem firstFailing_cons_congr {r : Reason} {b c : Bool} {bs cs : List (Reason × Bool)} (h : b = c)
    (hrest : c = false → firstFailing bs = firstFailing cs) :
    firstFailing ((r, b) :: bs) = firstFailing ((r, c) :: cs) := by
  subst h
  rw [firstFailing_cons, firstFailing_cons]
  cases b with
  | true => rfl
  | false => exact hrest rfl

/-- Where no entry's reason is VALID, VALID means that every check passed. -/
theorem pass_of_firstFailing_eq_valid {checks : List (Reason × Bool)} (hne : ∀ c ∈ checks, c.1 ≠ .valid)
    (h : firstFailing checks = .valid) : ∀ c ∈ checks, c.2 = false := by
  cases hf : checks.find? fun c => c.2 with
  | none => exact fun c hc => Bool.eq_false_iff.2 (List.find?_eq_none.1 hf c hc)
  | some c =>
    rw [firstFailing, hf] at h
    exact absurd h (hne c (List.mem_of_find?_eq_some hf))

/-- The validator's own checks, in the order and by the functions it runs them with. -/
def validatorChecks (p : Params) (t : List Byte) : List (Reason × Bool) :=
  [(.nonAscii, hasNonAscii t),
   (.tooShort, decide (t.length < Config.minFrameLen)),
   (.statusNotOk, decide (cid2Of t ≠ p.okCode)),
   (.lenidFormat, !hexDigitsAt t 9),
   (.lenidChecksum, !lenOk (lenidOf t)),
   (.fchkFormat, !hexDigitsAt t (t.length - 5)),
   (.fchkMismatch, decide (fchkOf t ≠ calcOf t)),
   (.bodyShort, decide (t.length - 18 < Config.bodyMin)),
   (.bodyNoCapacity, decide (t.length - 18 < Config.capEnd)),
   (.bodyFormat, !windowsHex t)]

theorem validateFrame_reason (p : Params) (t : List Byte) :
    (validateFrame p t).reason = firstFailing (validatorChecks p t) := by
  simp only [validateFrame, validateTail, validatorChecks, firstFailing_cons, firstFailing_nil,
    apply_ite Verdict.reason, decide_eq_true_eq]

/-! Each check in the terms of the statements. -/

theorem hexAt_toNat_of_hexDigitsAt {t : List Byte} {o : Nat} (hn : o + 4 ≤ t.length) (h : hexDigitsAt t o = true) :
    (hexAt t o).toNat = numberAt t o :=
  hexAt_toNat (allHexChars_iff.1 ((hexDigitsAt_eq hn).symm.trans h))

theorem statusCheck_eq (p : Params) (t : List Byte) : decide (cid2Of t ≠ p.okCode)
    = decide (p.okCode.toNat ≠ (charAt t 7).toNat * 256 + (charAt t 8).toNat) := by
  rw [decide_eq_decide, Ne, ← BitVec.toNat_inj, cid2Of_toNat, eq_comm]

theorem lenidCheck_eq {t : List Byte} (h : (lenidOf t).toNat = numberAt t 9) :
    (!lenOk (lenidOf t)) = decide (numberAt t 9 / 4096 ≠ topNibble (numberAt t 9 % 4096)) := by
  rw [lenOk_eq, h, ← decide_not]

theorem fchkCheck_eq {t : List Byte} (h : (fchkOf t).toNat = numberAt t (t.length - 5)) :
    decide (fchkOf t ≠ calcOf t)
      = decide (numberAt t (t.length - 5) ≠ negated16 (byteTotal ((t.drop 1).take (t.length - 6)))) := by
  rw [decide_eq_decide, Ne, ← BitVec.toNat_inj, h, calcOf_toNat]

/-- The validator's checks decide as the spec's do, each where those before it pass. -/
theorem firstFailing_validatorChecks (p : Params) (t : List Byte) :
    firstFailing (validatorChecks p t) = firstFailing (orderedChecks p t) := by
  refine firstFailing_cons_congr (hasNonAscii_eq t) fun _ => ?_
  refine firstFailing_cons_congr rfl fun hlen => ?_
  have hn : 18 ≤ t.length := Nat.not_lt.1 (of_decide_eq_false hlen)
  have h9 : hexDigitsAt t 9 = allHexChars t 9 13 := hexDigitsAt_eq (by omega)
  have h5 : hexDigitsAt t (t.length - 5) = allHexChars t (t.length - 5) (t.length - 1) := by
    rw [hexDigitsAt_eq (by omega), show t.length - 5 + 4 = t.length - 1 by omega]
  refine firstFailing_cons_congr (statusCheck_eq p t) fun _ => ?_
  refine firstFailing_cons_congr (congrArg not h9) fun hlenid => ?_
  rw [← h9, Bool.not_eq_false'] at hlenid
  refine firstFailing_cons_congr (lenidCheck_eq (hexAt_toNat_of_hexDigitsAt (by omega) hlenid)) fun _ => ?_
  refine firstFailing_cons_congr (congrArg not h5) fun hfchk => ?_
  rw [← h5, Bool.not_eq_false'] at hfchk
  refine firstFailing_cons_congr (fchkCheck_eq (hexAt_toNat_of_hexDigitsAt (by omega) hfchk)) fun _ => ?_
  refine firstFailing_cons_congr (decide_eq_decide.2 (Nat.sub_lt_iff_lt_add' hn)) fun _ => ?_
  refine firstFailing_cons_congr (decide_eq_decide.2 (Nat.sub_lt_iff_lt_add' hn)) fun hcap => ?_
  exact firstFailing_cons_congr (congrArg not (windowsHex_eq (Nat.not_lt.1 (of_decide_eq_false hcap)))) fun _ => rfl

theorem validate_reason (p : Params) (t : List Byte) :
    (validate p (some t)).reason = firstFailing (orderedChecks p t) :=
  (validateFrame_reason p t).trans (firstFailing_validatorChecks p t)

/-- Settles O31, check by check. -/
theorem firstFailingCheckGivesReason : Obligations.FirstFailingCheckGivesReason :=
  ⟨fun _ => rfl, validate_reason⟩

theorem orderedChecks_pass_of_valid {p : Params} {t : List Byte} (h : (validate p (some t)).reason = .valid) :
    ∀ c ∈ orderedChecks p t, c.2 = false :=
  pass_of_firstFailing_eq_valid (by simp [orderedChecks]) ((validate_reason p t).symm.trans h)

/-- Settles O33: a VALID frame passes the check of the capacity window. -/
theorem validFrameHas146Bytes : Obligations.ValidFrameHas146Bytes := fun p t h =>
  have hcap := orderedChecks_pass_of_valid h (.bodyNoCapacity, decide (t.length < 18 + 128)) (by simp [orderedChecks])
  Nat.not_lt.1 (of_decide_eq_false hcap)

theorem okCode_of_valid {p : Params} {t : List Byte} (h : (validate p (some t)).reason = .valid) :
    (charAt t 7).toNat * 256 + (charAt t 8).toNat = p.okCode.toNat :=
  have hstatus := orderedChecks_pass_of_valid h
    (.statusNotOk, decide (p.okCode.toNat ≠ (charAt t 7).toNat * 256 + (charAt t 8).toNat)) (by simp [orderedChecks])
  (not_not.1 (of_decide_eq_false hstatus)).symm

/-! What validate returns for a frame: the diagnostics as the checks fill them in, each at the check that reads it
(42_frame_validation.md R197). -/

def lengthDiag (t : List Byte) : Diag := { Diag.zero with rxlen := BitVec.ofNat 16 t.length }
def statusDiag (t : List Byte) : Diag := { lengthDiag t with cid2 := cid2Of t }
def lenidDiag (t : List Byte) : Diag := { statusDiag t with lenid := lenidOf t, lenidP := true }
def calcDiag (t : List Byte) : Diag := { lenidDiag t with fchkCalc := calcOf t, fchkCalcP := true }
def fchkDiag (t : List Byte) : Diag := { calcDiag t with fchkRx := fchkOf t, fchkRxP := true }

/-- The verdicts on a frame, by how far its checks came: a constructor for each set of diagnostics written, with the
numbers that the hex digits read so far write. -/
inductive FrameVerdict (p : Params) (t : List Byte) : Verdict → Prop
  | unread {r : Reason} (hr : r = .nonAscii ∨ r = .tooShort) : FrameVerdict p t ⟨r, .none, lengthDiag t⟩
  | statusRead {r : Reason} (hr : r = .statusNotOk ∨ r = .lenidFormat) :
    FrameVerdict p t ⟨r, statusClassOf p (cid2Of t), statusDiag t⟩
  | lenidRead (hlenid : (lenidOf t).toNat = numberAt t 9) :
    FrameVerdict p t ⟨.lenidChecksum, statusClassOf p (cid2Of t), lenidDiag t⟩
  | calcDone (hlenid : (lenidOf t).toNat = numberAt t 9) :
    FrameVerdict p t ⟨.fchkFormat, statusClassOf p (cid2Of t), calcDiag t⟩
  | fchkRead {r : Reason} (hr : r = .fchkMismatch ∨ r = .bodyShort ∨ r = .bodyNoCapacity ∨ r = .bodyFormat ∨ r = .valid)
      (hlenid : (lenidOf t).toNat = numberAt t 9) (hfchk : (fchkOf t).toNat = numberAt t (t.length - 5)) :
    FrameVerdict p t ⟨r, statusClassOf p (cid2Of t), fchkDiag t⟩

theorem statusClassOf_okCode (p : Params) : statusClassOf p p.okCode = .ok := if_pos rfl

theorem ok_eq_statusClassOf {p : Params} {t : List Byte} (h : cid2Of t = p.okCode) :
    StatusClass.ok = statusClassOf p (cid2Of t) := by rw [h, statusClassOf_okCode]

theorem validateTail_verdict {p : Params} {t : List Byte} (hn : 18 ≤ t.length) (hstatus : cid2Of t = p.okCode)
    (hlenid : (lenidOf t).toNat = numberAt t 9) : FrameVerdict p t (validateTail t (lenidDiag t)) := by
  unfold validateTail
  rw [ok_eq_statusClassOf hstatus]
  split
  · exact .calcDone hlenid
  · rename_i hdigits
    rw [Bool.not_eq_true', Bool.not_eq_false] at hdigits
    have hfchk : (fchkOf t).toNat = numberAt t (t.length - 5) := hexAt_toNat_of_hexDigitsAt (by omega) hdigits
    dsimp only
    repeat' split
    all_goals exact .fchkRead (by simp) hlenid hfchk

theorem validateFrame_verdict (p : Params) (t : List Byte) : FrameVerdict p t (validateFrame p t) := by
  unfold validateFrame
  split
  · exact .unread (.inl rfl)
  split
  · exact .unread (.inr rfl)
  rename_i hlen
  have hn : 18 ≤ t.length := Nat.not_lt.1 hlen
  dsimp only
  split
  · exact .statusRead (.inl rfl)
  rename_i hcode
  have hstatus : cid2Of t = p.okCode := not_not.1 hcode
  rw [ok_eq_statusClassOf hstatus]
  split
  · exact .statusRead (.inr rfl)
  rename_i hdigits
  rw [Bool.not_eq_true', Bool.not_eq_false] at hdigits
  have hlenid : (lenidOf t).toNat = numberAt t 9 := hexAt_toNat_of_hexDigitsAt (by omega) hdigits
  split
  · exact .lenidRead hlenid
  exact validateTail_verdict hn hstatus hlenid

namespace FrameVerdict

variable {p : Params} {t : List Byte} {v : Verdict} (h : FrameVerdict p t v)
include h

theorem rxlen_toNat (hn : t.length ≤ 65535) : v.diag.rxlen.toNat = t.length := by
  have hlen : v.diag.rxlen = BitVec.ofNat 16 t.length := by cases h <;> rfl
  rw [hlen, BitVec.toNat_ofNat]
  omega

theorem status : if v.reason = .nonAscii ∨ v.reason = .tooShort
    then v.diag.cid2 = 0#16 ∧ v.cls = .none
    else v.diag.cid2.toNat = (charAt t 7).toNat * 256 + (charAt t 8).toNat
      ∧ v.cls = statusClassOf p v.diag.cid2 := by
  have hcid2 := cid2Of_toNat t
  cases h with
  | unread hr => obtain rfl | rfl := hr <;> exact ⟨rfl, rfl⟩
  | statusRead hr => obtain rfl | rfl := hr <;> exact ⟨hcid2, rfl⟩
  | lenidRead | calcDone => exact ⟨hcid2, rfl⟩
  | fchkRead hr => obtain rfl | rfl | rfl | rfl | rfl := hr <;> exact ⟨hcid2, rfl⟩

theorem lenid : if v.reason = .nonAscii ∨ v.reason = .tooShort ∨ v.reason = .statusNotOk ∨ v.reason = .lenidFormat
    then v.diag.lenid = 0#16 ∧ v.diag.lenidP = false
    else v.diag.lenid.toNat = numberAt t 9 ∧ v.diag.lenidP = true := by
  cases h with
  | unread hr | statusRead hr => obtain rfl | rfl := hr <;> exact ⟨rfl, rfl⟩
  | lenidRead hlenid | calcDone hlenid => exact ⟨hlenid, rfl⟩
  | fchkRead hr hlenid => obtain rfl | rfl | rfl | rfl | rfl := hr <;> exact ⟨hlenid, rfl⟩

theorem fchkCalc : if v.reason = .nonAscii ∨ v.reason = .tooShort ∨ v.reason = .statusNotOk ∨ v.reason = .lenidFormat
      ∨ v.reason = .lenidChecksum
    then v.diag.fchkCalc = 0#16 ∧ v.diag.fchkCalcP = false
    else v.diag.fchkCalc.toNat = negated16 (byteTotal ((t.drop 1).take (t.length - 6)))
      ∧ v.diag.fchkCalcP = true := by
  have hcalc := calcOf_toNat t
  cases h with
  | unread hr | statusRead hr => obtain rfl | rfl := hr <;> exact ⟨rfl, rfl⟩
  | lenidRead => exact ⟨rfl, rfl⟩
  | calcDone => exact ⟨hcalc, rfl⟩
  | fchkRead hr => obtain rfl | rfl | rfl | rfl | rfl := hr <;> exact ⟨hcalc, rfl⟩

theorem fchkRx : if v.reason = .nonAscii ∨ v.reason = .tooShort ∨ v.reason = .statusNotOk ∨ v.reason = .lenidFormat
      ∨ v.reason = .lenidChecksum ∨ v.reason = .fchkFormat
    then v.diag.fchkRx = 0#16 ∧ v.diag.fchkRxP = false
    else v.diag.fchkRx.toNat = numberAt t (t.length - 5) ∧ v.diag.fchkRxP = true := by
  cases h with
  | unread hr | statusRead hr => obtain rfl | rfl := hr <;> exact ⟨rfl, rfl⟩
  | lenidRead | calcDone => exact ⟨rfl, rfl⟩
  | fchkRead hr _ hfchk => obtain rfl | rfl | rfl | rfl | rfl := hr <;> exact ⟨hfchk, rfl⟩

end FrameVerdict

/-! The VALIDATING period. -/

theorem step_validating {s : State} (hf : s.fsm = .validating) (hr : s.input.rst = false) :
    step s = andThen (validatingPeriod s.input s.busyStart) fun t => .next t.endPeriod := by
  rw [step_busy hr (by simp [hf]), hf]
  rfl

/-- Whatever it makes of the verdict, the period writes it down (44_acquisition_fsm.md R261). -/
theorem validatingPeriod_records {s t : State} {i : Inputs} (h : validatingPeriod i s = .next t) :
    t.diag = (validate s.params s.frame).diag ∧ t.lastReason = (validate s.params s.frame).reason
      ∧ t.lastClass = (validate s.params s.frame).cls := by
  obtain ⟨-, rfl⟩ | ⟨-, -, rfl⟩ := validatingPeriod_cases h
  · exact ⟨rfl, rfl, rfl⟩
  · exact ⟨rfl, rfl, rfl⟩

theorem validatingPeriod_invalid {s : State} (i : Inputs) (hn : s.rxN ≤ s.params.rxBufMax) (hp : s.pos.val + 1 < 7)
    (hv : (validate s.params s.frame).reason ≠ .valid) :
    validatingPeriod i s = .next { (s.countPoll i).record (validate s.params s.frame) with
      pos := ⟨s.pos.val + 1, hp⟩, stepT := 0#16, fsm := .advance } := by
  unfold validatingPeriod
  rw [if_neg fun hfull => Nat.not_lt.2 hn hfull.2]
  exact (if_neg hv).trans (dif_pos hp)

/-- Settles O35: such a frame is not VALID, and a FrameInvalid commits no reading. -/
theorem nonOkStatusNeverReachesDecoder : Obligations.NonOkStatusNeverReachesDecoder := by
  intro s f hf hr hframe hn hp hstatus
  have hv : (validate s.params s.frame).reason ≠ .valid := fun h => hstatus (okCode_of_valid (hframe ▸ h))
  have hp : s.pos.val + 1 < 7 := Nat.lt_succ_of_le (Nat.succ_le_succ hp)
  have hperiod := validatingPeriod_invalid (s := s.busyStart) s.input hn hp hv
  rw [step_validating hf hr, hperiod]
  exact ⟨_, rfl, ⟨rfl, rfl⟩, rfl, rfl, rfl⟩

/-! The status class (42_frame_validation.md R188). -/

theorem statusClassOf_ne_okCode {p : Params} {code : Half} (h : code ≠ p.okCode) :
    statusClassOf p code = ((p.statusClass.find? fun e => e.1 = code).map Prod.snd).getD .unknown := if_neg h

theorem statusClass_nodup {p : Params} (h : p.legal = true) : (p.statusClass.map Prod.fst).Nodup := by
  simp only [Params.legal, Bool.and_eq_true, decide_eq_true_eq] at h
  obtain ⟨⟨⟨⟨-, hnodup⟩, -⟩, -⟩, -⟩ := h
  exact hnodup

/-- A legal table holds each code once, so the entry found is the code's only one. -/
theorem statusClassOf_of_mem {p : Params} (hp : p.legal = true) {code : Half} (h : code ≠ p.okCode) {c : StatusClass}
    (hc : (code, c) ∈ p.statusClass) : statusClassOf p code = c := by
  rw [statusClassOf_ne_okCode h]
  cases hf : p.statusClass.find? fun e => e.1 = code with
  | none => exact absurd (decide_eq_true rfl) (List.find?_eq_none.1 hf _ hc)
  | some e =>
    have hcode : e.1 = code := by simpa using List.find?_some hf
    have he : e = (code, c) :=
      List.inj_on_of_nodup_map (statusClass_nodup hp) (List.mem_of_find?_eq_some hf) hc hcode
    rw [he]
    rfl

theorem statusClassOf_of_not_mem {p : Params} {code : Half} (h : code ≠ p.okCode)
    (hc : ∀ c, (code, c) ∉ p.statusClass) : statusClassOf p code = .unknown := by
  have hf : (p.statusClass.find? fun e => e.1 = code) = none :=
    List.find?_eq_none.2 fun e he hcode => hc e.2 (of_decide_eq_true hcode ▸ he)
  rw [statusClassOf_ne_okCode h, hf]
  rfl

/-- Settles O32: the diagnostics by the cases of the verdict, the period's writes, the class by the table. -/
theorem diagnosticsOfValidation : Obligations.DiagnosticsOfValidation := by
  refine ⟨fun _ => ⟨rfl, rfl⟩, fun p t r hn hr => ?_, fun s t hf hr ht => ?_, fun p code hp => ?_⟩
  · subst hr
    have h : FrameVerdict p t (validate p (some t)) := validateFrame_verdict p t
    exact ⟨h.rxlen_toNat hn, h.status, h.lenid, h.fchkCalc, h.fchkRx⟩
  · rw [step_validating hf hr, andThen_eq_next] at ht
    obtain ⟨u, hu, ht⟩ := ht
    obtain rfl := Host.Outcome.next.inj ht
    have h := validatingPeriod_records hu
    exact h
  · refine ⟨fun h => ?_, fun h _ => statusClassOf_of_mem hp h, statusClassOf_of_not_mem⟩
    rw [h, statusClassOf_okCode]

end Sys2Proof.Machine
end

section
/-! PROOFS. STATUS_CLASS reaches nothing but last_class (42_frame_validation.md R188): every operation of a period but the
validation commutes with an exchange of the table, and the validation up to the class it records. -/

namespace Sys2Proof.Machine

open Sys2Proof.Safety

/-- The same parameters with another table. -/
def otherTable (p : Params) (table : List (Half × StatusClass)) : Params := { p with statusClass := table }

/-- The same state of a block with other parameters and another class recorded. -/
def State.withClass (s : State) (q : Params) (c : StatusClass) : State := { s with params := q, lastClass := c }

theorem State.withClass_pos (s : State) (q : Params) (c : StatusClass) : (s.withClass q c).pos = s.pos := rfl

theorem State.advanceCycle_withClass (s : State) (q : Params) (c : StatusClass) :
    (s.withClass q c).advanceCycle = andThen s.advanceCycle fun t => .next (t.withClass q c) := by
  unfold State.advanceCycle
  rw [State.withClass_pos]
  split <;> rfl

/-- An operation that reads no table leaves the class as it would have been. -/
theorem exists_withClass_of_commutes {r r' : Result} {q : Params} {t : State}
    (h : r' = andThen r (nextWithParams q)) (ht : r = .next t) : ∃ c, r' = .next (t.withClass q c) :=
  ⟨t.lastClass, by rw [h, ht]; rfl⟩

/-- The table has no say in the reason and the diagnostics. -/
theorem validateFrame_otherTable (p : Params) (table : List (Half × StatusClass)) (t : List Byte) :
    validateFrame (otherTable p table) t
      = { validateFrame p t with cls := (validateFrame (otherTable p table) t).cls } := by
  have hreason : (validateFrame (otherTable p table) t).reason = (validateFrame p t).reason := by
    rw [validateFrame_reason, validateFrame_reason]
    rfl
  have hdiag : (validateFrame (otherTable p table) t).diag = (validateFrame p t).diag := by
    simp only [validateFrame, apply_ite Verdict.diag]
    rfl
  dsimp only
  rw [← hreason, ← hdiag]

theorem validate_otherTable (p : Params) (table : List (Half × StatusClass)) (f : Option (List Byte)) :
    validate (otherTable p table) f = { validate p f with cls := (validate (otherTable p table) f).cls } := by
  cases f with
  | none => rfl
  | some t => exact validateFrame_otherTable p table t

/-! The operations that read a parameter read one that the two tables share. -/

section OtherTable

variable {s t : State} {q : Params} {table : List (Half × StatusClass)} (h : q = otherTable s.params table)
include h

theorem State.transfer_otherTable (i : Inputs) : (s.withParams q).transfer i = (s.transfer i).withParams q := by
  have htx : (s.withParams q).txValid = s.txValid := by
    subst h
    rfl
  unfold State.transfer
  rw [htx]
  split <;> rfl

theorem rxBufMax_otherTable : q.rxBufMax = s.params.rxBufMax := by
  subst h
  rfl

theorem State.capture_otherTable (i : Inputs) :
    (s.withParams q).capture i = andThen (s.capture i) (nextWithParams q) := by
  unfold State.capture
  rw [State.withParams_toBlock, State.withParams_params, rxBufMax_otherTable h]
  split
  · split
    · rfl
    · split <;> rfl
  · rfl

theorem sendingPeriod_otherTable (i : Inputs) :
    sendingPeriod i (s.withParams q) = andThen (sendingPeriod i s) (nextWithParams q) := by
  have hreq : (s.withParams q).request = s.request := by
    subst h
    rfl
  unfold sendingPeriod
  rw [hreq]
  split
  · rfl
  · refine andThen_nextWithParams (State.capture_otherTable h i) fun t ht => congrArg Host.Outcome.next ?_
    have hparams : t.params = s.params := by rw [State.capture_frame ht]
    rw [State.transfer_otherTable (hparams ▸ h)]
    exact State.sendingEvent_withParams i _

theorem awaitingPeriod_otherTable (i : Inputs) :
    awaitingPeriod i (s.withParams q) = andThen (awaitingPeriod i s) (nextWithParams q) :=
  andThen_nextWithParams (State.capture_otherTable h i) fun _ _ =>
    congrArg Host.Outcome.next (State.awaitingEvent_withParams i)

/-- The validation records the class of the other table, and does nothing else by it. -/
theorem validatingPeriod_otherTable (i : Inputs) :
    validatingPeriod i (s.withParams q)
      = andThen (validatingPeriod i s) fun t => .next (t.withClass q (validate q s.frame).cls) := by
  have hv : validate q s.frame = { validate s.params s.frame with cls := (validate q s.frame).cls } := by
    subst h
    exact validate_otherTable s.params table s.frame
  generalize (validate q s.frame).cls = c at hv ⊢
  unfold validatingPeriod
  rw [State.withParams_toBlock, State.withParams_params, State.withParams_frame, rxBufMax_otherTable h, hv]
  split
  · rfl
  · dsimp only
    split
    · rfl
    · exact State.advanceCycle_withClass ((s.countPoll i).record (validate s.params s.frame)) q c

theorem acquire_otherTable {pre : Fsm} {i : Inputs} (ht : acquire pre i s = .next t) :
    ∃ c, acquire pre i (s.withParams q) = .next (t.withClass q c) := by
  cases pre with
  | idle => exact exists_withClass_of_commutes rfl ht
  | sending => exact exists_withClass_of_commutes (sendingPeriod_otherTable h i) ht
  | awaiting => exact exists_withClass_of_commutes (awaitingPeriod_otherTable h i) ht
  | validating => exact ⟨_, (validatingPeriod_otherTable h i).trans (congrArg (andThen · _) ht)⟩
  | advance => exact exists_withClass_of_commutes (advancePeriod_withParams i) ht

/-- By the three kinds of step: only the VALIDATING period sees the table, for the class it records. -/
theorem step_otherTable (ht : step s = .next t) : ∃ c, step (s.withParams q) = .next (t.withClass q c) := by
  obtain ⟨hr, rfl⟩ | ⟨hr, hi, u, hu, rfl⟩ | ⟨hr, hi, u, hu, rfl⟩ := step_cases ht
  · subst h
    exact ⟨_, step_reset (s := s.withParams (otherTable s.params table)) hr⟩
  · obtain ⟨c, hc⟩ := exists_withClass_of_commutes (commandPhase_withParams (q := q) s.input) hu
    rw [step_idle (s := s.withParams q) hr hi, State.afterPort_withParams, State.withParams_input, hc]
    exact ⟨c, rfl⟩
  · obtain ⟨c, hc⟩ := acquire_otherTable (s := s.busyStart) h hu
    rw [step_busy (s := s.withParams q) hr hi]
    exact ⟨c, congrArg (andThen · fun t => .next t.endPeriod) hc⟩

end OtherTable

/-- Settles O36: the step commutes with exchanging the table, but for the class it records. -/
theorem statusClassAffectsNoControlFlow : Obligations.StatusClassAffectsNoControlFlow :=
  fun _ _ _ ht => step_otherTable rfl ht

end Sys2Proof.Machine
end

section
/-! PROOFS. The capture window (43_transport_framing.md R226..R229): what a period of SENDING or AWAITING makes of the
response buffer. The capture step says it all but for rx_err; the events after it leave the buffer alone. -/

namespace Sys2Proof.Machine

open Sys2Proof.Safety

/-! The capture step (R227, R228) -/

section Capture

variable {s u : State} {i : Inputs}

/-- The state with b stored at RXB[rx_n] and counted. -/
def State.store (s : State) (b : Byte) (x : RxState) : State :=
  { s with rxb := Memory.write s.rxb s.rxN b, rxN := s.rxN + 1, rxState := x }

theorem State.captured_store (hwf : Memory.wf s.rxb = true) (b : Byte) (x : RxState) :
    (s.store b x).captured = s.captured ++ [b] := Memory.upTo_write s.rxN b hwf

theorem State.capture_store (hs : s.rxState = .capturing) (hv : i.rxValid = true) (hn : s.rxN < s.params.rxBufMax) :
    s.capture i = .next (s.store i.rxData (if i.rxData = Config.delim then .complete else .capturing)) := by
  unfold State.capture
  rw [if_pos ⟨hs, hv⟩, if_neg (Nat.ne_of_lt hn), if_neg (Nat.not_lt_of_lt hn)]
  rfl

theorem State.capture_dropped (i : Inputs) (hs : s.rxState ≠ .capturing) : s.capture i = .next s :=
  if_neg fun h => hs h.1

/-- What the capture step of the period that begins in s leaves in the buffer. -/
theorem capture_buffer (hwf : Memory.wf s.rxb = true) (hu : s.busyStart.capture s.input = .next u) :
    if byteArrives s ∧ s.rxN ≠ s.params.rxBufMax then
      u.rxN = s.rxN + 1 ∧ Memory.read u.rxb s.rxN = s.input.rxData
        ∧ (∀ j, j ≠ s.rxN → Memory.read u.rxb j = Memory.read s.rxb j)
        ∧ u.captured = s.captured ++ [s.input.rxData]
    else u.rxN = s.rxN ∧ u.rxb = s.rxb := by
  rcases State.capture_cases hu with ⟨hdrop, rfl⟩ | ⟨-, -, hfull, rfl⟩ | ⟨hs, hv, hn, rfl⟩
  · rw [if_neg fun h => hdrop h.1]
    exact ⟨rfl, rfl⟩
  · rw [if_neg fun h => h.2 hfull]
    exact ⟨rfl, rfl⟩
  · rw [if_pos ⟨⟨hs, hv⟩, Nat.ne_of_lt hn⟩]
    exact ⟨rfl, Memory.read_write_same _ _ hwf, fun _ hj => Memory.read_write_other _ hwf hj,
      State.captured_store (s := s.busyStart) hwf _ _⟩

/-- The post-capture rx_state, in the statements' words. -/
theorem capture_rxState (hu : s.busyStart.capture s.input = .next u) :
    (u.rxState = .complete ↔ frameComplete s) ∧ (u.rxState = .null ↔ responseNull s) := by
  rcases State.capture_cases hu with ⟨hdrop, rfl⟩ | ⟨hs, hv, hfull, rfl⟩ | ⟨hs, hv, hn, rfl⟩
  · have hdrop : ¬byteArrives s := hdrop
    simp [frameComplete, responseNull, hdrop]
  · have hs : s.rxState = .capturing := hs
    have hfull : s.rxN = s.params.rxBufMax := hfull
    simp [frameComplete, responseNull, byteArrives, hs, hv, hfull]
  · have hs : s.rxState = .capturing := hs
    have hn : s.rxN ≠ s.params.rxBufMax := Nat.ne_of_lt hn
    by_cases hb : s.input.rxData = Config.delim <;>
      simp [frameComplete, responseNull, byteArrives, hs, hv, hn, hb]

theorem capture_rxN_le (hn : s.rxN ≤ s.params.rxBufMax) (hu : s.capture i = .next u) :
    u.rxN ≤ u.params.rxBufMax := by
  rcases State.capture_cases hu with ⟨-, rfl⟩ | ⟨-, -, -, rfl⟩ | ⟨-, -, hlt, rfl⟩
  · exact hn
  · exact hn
  · exact hlt

end Capture

/-! The events after the capture step: they leave the buffer alone, but for the null response of rx_err (R229). -/

section Events

theorem State.deadlines_buffer (s : State) (i : Inputs) :
    (s.deadlines i).rxb = s.rxb ∧ (s.deadlines i).rxN = s.rxN ∧ (s.deadlines i).rxState = s.rxState := by
  rcases s.deadlines_cases i with ⟨-, e⟩ | ⟨-, -, e⟩ | ⟨-, -, e⟩ <;> rw [e] <;> exact ⟨rfl, rfl, rfl⟩

theorem State.sendingEvent_buffer (s : State) (i : Inputs) (sent : Bool) :
    (s.sendingEvent i sent).rxb = s.rxb ∧ (s.sendingEvent i sent).rxN = s.rxN
      ∧ (s.sendingEvent i sent).rxState = s.rxState := by
  rcases s.sendingEvent_cases i sent with ⟨-, e⟩ | ⟨-, -, -, e⟩ | ⟨-, -, e⟩ <;> rw [e]
  · exact ⟨rfl, rfl, rfl⟩
  · exact ⟨rfl, rfl, rfl⟩
  · exact s.deadlines_buffer i

theorem State.awaitingEvent_buffer (s : State) (i : Inputs) :
    (s.awaitingEvent i).rxb = s.rxb ∧ (s.awaitingEvent i).rxN = s.rxN
      ∧ ((s.awaitingEvent i).rxState = s.rxState ∨ s.rxState = .capturing ∧ i.rxErr = true) := by
  rcases s.awaitingEvent_cases i with ⟨-, e⟩ | ⟨hx, herr, e⟩ | ⟨-, -, e⟩ <;> rw [e]
  · exact ⟨rfl, rfl, .inl rfl⟩
  · refine ⟨rfl, rfl, ?_⟩
    cases hs : s.rxState with
    | capturing => exact .inr ⟨rfl, herr.resolve_left (by simp [hs])⟩
    | complete => exact absurd hs hx
    | null => exact .inl rfl
  · obtain ⟨hb, hn, hx⟩ := s.deadlines_buffer i
    exact ⟨hb, hn, .inl hx⟩

end Events

/-! A step in the capture window -/

section Window

variable {s u : State}

theorem step_sending {req : List Byte} (hf : s.fsm = .sending) (hr : s.input.rst = false) (hreq : s.request = some req)
    (hu : s.busyStart.capture s.input = .next u) :
    step s = .next ((u.transfer s.input).sendingEvent s.input (decide (s.sendIdx = req.length))).endPeriod := by
  have hreq : s.busyStart.request = some req := hreq
  rw [step_busy hr (by simp [hf]), hf, acquire, sendingPeriod, hreq, hu]
  rfl

theorem step_awaiting (hf : s.fsm = .awaiting) (hr : s.input.rst = false)
    (hu : s.busyStart.capture s.input = .next u) : step s = .next (u.awaitingEvent s.input).endPeriod := by
  rw [step_busy hr (by simp [hf]), hf, acquire, awaitingPeriod, hu]
  rfl

/-- What is left of the buffer by a period of the window is what its capture step left, but for the null response that
rx_err gives in AWAITING. -/
theorem step_window (hw : s.fsm = .sending ∧ s.pos.val ≤ 5 ∨ s.fsm = .awaiting) (hr : s.input.rst = false)
    (hn : s.rxN ≤ s.params.rxBufMax) :
    ∃ u t, s.busyStart.capture s.input = .next u ∧ step s = .next t ∧ t.rxb = u.rxb ∧ t.rxN = u.rxN
      ∧ (t.rxState = u.rxState ∨ u.rxState = .capturing ∧ s.fsm = .awaiting ∧ s.input.rxErr = true) := by
  obtain ⟨u, hu⟩ := State.capture_completes (s := s.busyStart) s.input hn
  rcases hw with ⟨hf, hp⟩ | hf
  · obtain ⟨req, hreq⟩ := request_exists hp
    obtain ⟨hb, hN, hx⟩ := (u.transfer s.input).sendingEvent_buffer s.input (decide (s.sendIdx = req.length))
    exact ⟨u, _, hu, step_sending hf hr hreq hu, by simpa using hb, by simpa using hN, .inl (by simpa using hx)⟩
  · obtain ⟨hb, hN, hx⟩ := u.awaitingEvent_buffer s.input
    exact ⟨u, _, hu, step_awaiting hf hr hu, hb, hN, hx.imp_right fun h => ⟨h.1, hf, h.2⟩⟩

end Window

/-- Settles O45: the buffer after the period is the one its capture step left, and rx_state too but for rx_err. -/
theorem captureStoresOneByte : Obligations.CaptureStoresOneByte := by
  intro s hw hr hn hwf
  obtain ⟨u, t, hu, ht, hb, hN, hx⟩ := step_window hw hr hn
  obtain ⟨hcomplete, hnull⟩ := capture_rxState hu
  have hbuffer := capture_buffer hwf hu
  have hcaptured : t.captured = u.captured := by rw [State.captured, hb, hN, State.captured]
  have hkept : u.rxState ≠ .capturing → t.rxState = u.rxState := fun h => hx.resolve_right fun h' => h h'.1
  have hcompletes : frameComplete s → t.rxState = .complete := fun h => by
    have hc := hcomplete.2 h
    rw [hkept (by simp [hc]), hc]
  refine ⟨t, ht, ?_, hcompletes, fun h => ?_, fun hc h0 herr => ?_⟩
  · rw [← hb, ← hN, ← hcaptured] at hbuffer
    split at hbuffer <;> rename_i hstore
    · obtain ⟨hcount, hread, hother, hall⟩ := hbuffer
      rw [if_pos hstore]
      refine ⟨hcount, hread, hother, hall, fun hd => ?_⟩
      rw [State.frame, if_pos (hcompletes (.inr ⟨hstore.1, hstore.2, hd⟩)), hall]
    · rw [if_neg hstore]
      exact ⟨hbuffer.1, fun j => by rw [hbuffer.2]⟩
  · have hc := hnull.2 h
    rw [hkept (by simp [hc]), hc]
  · have hcap : u.rxState = .capturing := by
      cases hs : u.rxState with
      | capturing => rfl
      | complete => exact absurd (hcomplete.1 hs) hc
      | null => exact absurd (hnull.1 hs) h0
    refine (hx.resolve_right fun ⟨_, ha, he⟩ => ?_).trans hcap
    rcases herr with hf | hne
    · simp [hf] at ha
    · simp [hne] at he

end Sys2Proof.Machine
end

section
/-! PROOFS. Runs through the capture window (43_transport_framing.md R222, R227, R231): a response delivered in AWAITING,
byte by byte, is captured whole; a request is offered in SENDING, byte by byte, in order. -/

namespace Sys2Proof.Machine

open Sys2Proof.Safety

/-! Runs along the script -/

section Scripts

variable {s t : State}

theorem run_succ_of_step (h : step s = .next t) (k : Nat) :
    Sys2Proof.core.run (k + 1) s = Sys2Proof.core.run k t := by
  have h : Sys2Proof.core.step s = .next t := h
  simp [Host.Core.run, h]

/-- What a script gives the first of its periods, and those after it. -/
theorem input_of_script {P : Nat → Inputs → Prop} {n : Nat}
    (h : ∀ k, k < n + 1 → ∃ i, s.script[k]? = some i ∧ P k i) :
    P 0 s.input ∧ ∀ k, k < n → ∃ i, s.script.tail[k]? = some i ∧ P (k + 1) i := by
  obtain ⟨i, hi, h0⟩ := h 0 (Nat.succ_pos n)
  have hinput : s.input = i := by
    cases hs : s.script with
    | nil => simp [hs] at hi
    | cons j rest =>
      rw [hs] at hi
      rw [State.input, hs]
      exact Option.some.inj hi
  refine ⟨hinput ▸ h0, fun k hk => ?_⟩
  rw [List.getElem?_tail]
  exact h (k + 1) (Nat.succ_lt_succ hk)

end Scripts

/-! Periods without a tick -/

section Quiet

variable {s : State} {i : Inputs}

/-- No deadline holds where no tick comes: the step timer is below the budget, and there is no outer deadline. -/
structure NoDeadline (s : State) : Prop where
  step : s.stepT.toNat < s.stepBudget.toNat
  outer : s.pollBudget = 0#24

theorem NoDeadline.stepDue (h : NoDeadline s) (ht : i.tick = false) : s.stepDue i = false := by
  simpa [State.stepDue, State.stepSum, ht] using h.step

theorem NoDeadline.deadlines (h : NoDeadline s) (ht : i.tick = false) : s.deadlines i = s.countTicks i := by
  have houter : s.outerDue i = false := by simp [State.outerDue, h.outer]
  unfold State.deadlines
  rw [houter, h.stepDue ht]
  rfl

/-- A SENDING period in which nothing happens but the transfer counts no tick and stays (44_acquisition_fsm.md R256). -/
theorem NoDeadline.sendingEvent (h : NoDeadline s) (ht : i.tick = false) (he : i.txErr = false) :
    s.sendingEvent i false = s.countTicks i := by
  rw [State.sendingEvent, if_neg (by simp [he]), if_neg (by simp), h.deadlines ht]

/-- The same in AWAITING, with the response not yet there (44_acquisition_fsm.md R258). -/
theorem NoDeadline.awaitingEvent (h : NoDeadline s) (ht : i.tick = false) (he : i.rxErr = false)
    (hs : s.rxState = .capturing) : s.awaitingEvent i = s.countTicks i := by
  rw [State.awaitingEvent, if_neg (by simp [hs]), if_neg (by simp [hs, he]), h.deadlines ht]

theorem NoDeadline.countTicks (h : NoDeadline s) (ht : i.tick = false) : NoDeadline (s.countTicks i) :=
  ⟨stepT_lt_of_not_due (h.stepDue ht), h.outer⟩

end Quiet

/-! The delivery of a response in AWAITING (R227, R231) -/

section Delivery

variable {s : State} {b : Byte}

/-- AWAITING with the delimiter not yet seen, where no deadline holds without a tick. -/
structure Listening (s : State) : Prop extends NoDeadline s where
  fsm : s.fsm = .awaiting
  capturing : s.rxState = .capturing
  bufferWf : Memory.wf s.rxb = true

/-- A period from s to t that captured b. -/
structure Captured (s : State) (b : Byte) (t : State) : Prop where
  bytes : t.captured = s.captured ++ [b]
  count : t.rxN = s.rxN + 1
  pos : t.pos = s.pos
  params : t.params = s.params
  script : t.script = s.script.tail

theorem Listening.step_delimiter (h : Listening s) (hn : s.rxN < s.params.rxBufMax)
    (hd : deliversOnly Config.delim s.input) :
    ∃ t, step s = .next t ∧ t.fsm = .validating ∧ t.rxState = .complete ∧ Captured s Config.delim t := by
  obtain ⟨hr, -, -, hv, hb⟩ := hd
  have hu := State.capture_store (s := s.busyStart) h.capturing hv hn
  rw [if_pos hb, hb] at hu
  refine ⟨_, step_awaiting h.fsm hr hu, rfl, rfl, ?_⟩
  exact ⟨State.captured_store (s := s.busyStart) h.bufferWf _ .complete, rfl, rfl, rfl, rfl⟩

theorem Listening.step_byte (h : Listening s) (hn : s.rxN < s.params.rxBufMax) (hb : b ≠ Config.delim)
    (hd : deliversOnly b s.input) : ∃ t, step s = .next t ∧ Listening t ∧ Captured s b t := by
  obtain ⟨hr, ht, herr, hv, rfl⟩ := hd
  have hu := State.capture_store (s := s.busyStart) h.capturing hv hn
  have hstored : NoDeadline (s.busyStart.store s.input.rxData .capturing) := { h.toNoDeadline with }
  rw [if_neg hb] at hu
  have hstep := step_awaiting h.fsm hr hu
  rw [hstored.awaitingEvent ht herr rfl] at hstep
  refine ⟨_, hstep, ?_, ⟨State.captured_store (s := s.busyStart) h.bufferWf _ .capturing, rfl, rfl, rfl, rfl⟩⟩
  exact { hstored.countTicks ht with
    fsm := h.fsm
    capturing := rfl
    bufferWf := Memory.write_wf _ _ h.bufferWf }

/-- A body and its delimiter, delivered one byte a period, complete the frame that s has begun. -/
theorem Listening.run_delivery {body : List Byte} (h : Listening s) (hbody : ∀ b ∈ body, b ≠ Config.delim)
    (hn : s.rxN + body.length < s.params.rxBufMax)
    (hscript : ∀ k, k < body.length + 1 → ∃ i, s.script[k]? = some i
      ∧ deliversOnly ((body ++ [Config.delim]).getD k 0#8) i) :
    ∃ t, Sys2Proof.core.run (body.length + 1) s = .next t ∧ t.fsm = .validating
      ∧ t.frame = some (s.captured ++ (body ++ [Config.delim])) ∧ t.pos = s.pos := by
  induction body generalizing s with
  | nil =>
    obtain ⟨hd, -⟩ := input_of_script hscript
    obtain ⟨t, ht, hf, hx, hc⟩ := h.step_delimiter hn hd
    exact ⟨t, run_succ_of_step ht 0, hf, (if_pos hx).trans (congrArg some hc.bytes), hc.pos⟩
  | cons b body ih =>
    obtain ⟨hb, hbody⟩ := List.forall_mem_cons.1 hbody
    obtain ⟨hd, hrest⟩ := input_of_script hscript
    rw [List.length_cons] at hn
    obtain ⟨u, hu, hl, hc⟩ := h.step_byte (by omega) hb hd
    have hroom : u.rxN + body.length < u.params.rxBufMax := by rw [hc.count, hc.params]; omega
    obtain ⟨t, ht, hf, hframe, hp⟩ := ih hl hbody hroom (by rw [hc.script]; exact hrest)
    refine ⟨t, (run_succ_of_step hu _).trans ht, hf, ?_, hp.trans hc.pos⟩
    rw [hframe, hc.bytes, List.append_assoc]
    rfl

end Delivery

/-- Settles O47, by induction on the body, from an empty buffer. -/
theorem deliveredFrameIsCapturedWhole : Obligations.DeliveredFrameIsCapturedWhole := by
  intro s body hf hx hn hwf houter hstep hbody hfits hscript
  have hlistening : Listening s := ⟨⟨hstep, houter⟩, hf, hx, hwf⟩
  obtain ⟨t, ht, hv, hframe, hp⟩ := hlistening.run_delivery hbody (by omega) hscript
  have hempty : s.captured = [] := by rw [State.captured, hn]; rfl
  exact ⟨t, ht, hv, by rw [hframe, hempty, List.nil_append], hp⟩

/-! The sending of a request (R222) -/

section Request

variable {s : State} {req : List Byte}

theorem State.txValid_sending (hf : s.fsm = .sending) (hreq : s.request = some req) :
    s.txValid = decide (s.sendIdx < req.length) := by simp [State.txValid, hf, hreq]

theorem State.txData_sending (hf : s.fsm = .sending) (hreq : s.request = some req) :
    s.txData = req.getD s.sendIdx 0x00#8 := by
  rw [State.txData, State.txValid_sending hf hreq, hreq]
  split
  · rfl
  · rename_i h
    rw [List.getD_eq_default _ _ (by simpa using h)]

theorem State.txValid_of_not_sending (hf : s.fsm ≠ .sending) : s.txValid = false := by simp [State.txValid, hf]

theorem State.transfer_taken {i : Inputs} (hf : s.fsm = .sending) (hreq : s.request = some req)
    (hlt : s.sendIdx < req.length) (hready : i.txReady = true) :
    s.transfer i = { s with sendIdx := s.sendIdx + 1 } := by
  have htx := State.txValid_sending hf hreq
  rw [State.transfer, htx, hready, if_pos (by simpa using hlt)]

/-- SENDING with the request req, where no deadline holds without a tick. -/
structure Offering (req : List Byte) (s : State) : Prop extends NoDeadline s where
  fsm : s.fsm = .sending
  request : s.request = some req
  countFits : s.rxN ≤ s.params.rxBufMax

/-- Whatever is received, the request goes on. -/
theorem Offering.of_capture {i : Inputs} {u : State} (h : Offering req s) (hu : s.capture i = .next u) :
    Offering req u ∧ u.sendIdx = s.sendIdx ∧ u.script = s.script := by
  have hfits := capture_rxN_le h.countFits hu
  rw [State.capture_frame hu] at hfits ⊢
  exact ⟨{ h with countFits := hfits }, rfl, rfl⟩

theorem Offering.step_taken (h : Offering req s) (hlt : s.sendIdx < req.length) (hi : takesOnly s.input) :
    ∃ t, step s = .next t ∧ Offering req t ∧ t.sendIdx = s.sendIdx + 1 ∧ t.script = s.script.tail := by
  obtain ⟨hr, ht, herr, hready⟩ := hi
  have hstart : Offering req s.busyStart := { h with }
  obtain ⟨u, hu⟩ := State.capture_completes s.input hstart.countFits
  obtain ⟨ho, hidx, hs⟩ := hstart.of_capture hu
  have hidx : u.sendIdx = s.sendIdx := hidx
  have hnext : Offering req { u with sendIdx := u.sendIdx + 1 } := { ho with }
  have hsent : decide (s.sendIdx = req.length) = false := decide_eq_false (Nat.ne_of_lt hlt)
  have hstep := step_sending h.fsm hr h.request hu
  rw [State.transfer_taken ho.fsm ho.request (hidx ▸ hlt) hready, hsent, hnext.sendingEvent ht herr] at hstep
  refine ⟨_, hstep, ?_, congrArg (· + 1) hidx, congrArg List.tail hs⟩
  exact { hnext.toNoDeadline.countTicks ht with
    fsm := ho.fsm
    request := ho.request
    countFits := ho.countFits }

theorem Offering.run_taken {k : Nat} (h : Offering req s) (hk : s.sendIdx + k ≤ req.length)
    (hscript : ∀ j, j < k → ∃ i, s.script[j]? = some i ∧ takesOnly i) :
    ∃ t, Sys2Proof.core.run k s = .next t ∧ Offering req t ∧ t.sendIdx = s.sendIdx + k := by
  induction k generalizing s with
  | zero => exact ⟨s, rfl, h, rfl⟩
  | succ k ih =>
    obtain ⟨hi, hrest⟩ := input_of_script hscript
    obtain ⟨u, hu, ho, hidx, hs⟩ := h.step_taken (by omega) hi
    obtain ⟨t, ht, hot, hidxt⟩ := ih ho (by omega) (by rw [hs]; exact hrest)
    exact ⟨t, (run_succ_of_step hu k).trans ht, hot, by omega⟩

end Request

/-- Settles O48: what a state offers is by its send_idx, which counts the periods of the run. -/
theorem requestIsOfferedInOrder : Obligations.RequestIsOfferedInOrder := by
  refine ⟨fun s req hf hreq => ?_, fun s hf => ?_, ?_⟩
  · exact ⟨State.txValid_sending hf hreq, State.txData_sending hf hreq⟩
  · have hnone := State.txValid_of_not_sending hf
    exact ⟨hnone, if_neg (by simp [hnone])⟩
  · intro s req k hf hidx hreq hn houter hstep hk hscript
    have hoffering : Offering req s := ⟨⟨hstep, houter⟩, hf, hreq, hn⟩
    obtain ⟨t, ht, ho, hk'⟩ := hoffering.run_taken (by omega) hscript
    obtain rfl : t.sendIdx = k := by omega
    exact ⟨t, ht, ho.fsm, rfl, State.txValid_sending ho.fsm ho.request, State.txData_sending ho.fsm ho.request⟩

end Sys2Proof.Machine
end

section
/-! PROOFS. The byte that no period outside the capture window looks at (43_transport_framing.md R230). No operation but
the capture step reads it, so each commutes with an exchange of the period's input vector, which the edge discards. -/

namespace Sys2Proof.Machine

/-- The same state with the input vector of the period replaced by what g makes of it. -/
def State.mapInput (g : Inputs → Inputs) (s : State) : State := { s with script := s.script.modifyHead g }

@[simp] theorem State.mapInput_toBlock (g : Inputs → Inputs) (s : State) : (s.mapInput g).toBlock = s.toBlock := rfl
@[simp] theorem State.mapInput_params (g : Inputs → Inputs) (s : State) : (s.mapInput g).params = s.params := rfl
@[simp] theorem State.mapInput_request (g : Inputs → Inputs) (s : State) : (s.mapInput g).request = s.request := rfl
@[simp] theorem State.mapInput_frame (g : Inputs → Inputs) (s : State) : (s.mapInput g).frame = s.frame := rfl

theorem State.endPeriod_mapInput (g : Inputs → Inputs) (s : State) : (s.mapInput g).endPeriod = s.endPeriod := by
  have htail : (s.script.modifyHead g).tail = s.script.tail := by cases s.script <;> rfl
  unfold State.endPeriod
  exact congrArg (fun l => ({ s with script := l, period := s.period + 1 } : State)) htail

/-- An operation that does not read what g changes of the input vector. -/
def IgnoresInput (g : Inputs → Inputs) (f : State → State) : Prop := ∀ s, f (s.mapInput g) = (f s).mapInput g

namespace IgnoresInput

variable {g : Inputs → Inputs} {f f' : State → State}

theorem comp (hf' : IgnoresInput g f') (hf : IgnoresInput g f) : IgnoresInput g fun s => f' (f s) :=
  fun s => (congrArg f' (hf s)).trans (hf' (f s))

theorem ite {c : State → Prop} [∀ s, Decidable (c s)] (hc : ∀ s, c (s.mapInput g) = c s)
    (hf : IgnoresInput g f) (hf' : IgnoresInput g f') : IgnoresInput g fun s => if c s then f s else f' s := by
  intro s
  simp only [hc, hf s, hf' s, apply_ite (State.mapInput g)]

theorem countTicks (i : Inputs) : IgnoresInput g (State.countTicks · i) := fun _ => rfl
theorem endPoll (c : RespCode) : IgnoresInput g (State.endPoll · c) := fun _ => rfl

theorem writeReg (a : RegAddr) (w : Word) : IgnoresInput g (State.writeReg · a w) :=
  .ite (fun _ => rfl) (fun _ => rfl) (.ite (fun _ => rfl) (fun _ => rfl) fun _ => rfl)

theorem whenAccepted (hf : IgnoresInput g f) : IgnoresInput g (State.whenAccepted · f) :=
  .ite (fun _ => rfl) hf fun _ => rfl

theorem startPoll (link : Bool) : IgnoresInput g (State.startPoll · link) :=
  .ite (fun _ => rfl) (fun _ => rfl) (.ite (fun _ => rfl) (fun _ => rfl) fun _ => rfl)

theorem transfer (i : Inputs) : IgnoresInput g (State.transfer · i) :=
  .ite (fun _ => rfl) (fun _ => rfl) fun _ => rfl

theorem deadlines (i : Inputs) : IgnoresInput g (State.deadlines · i) :=
  .ite (fun _ => rfl) ((endPoll _).comp (countTicks i))
    (.ite (fun _ => rfl) ((endPoll _).comp (countTicks i)) (countTicks i))

theorem sendingEvent (i : Inputs) (sent : Bool) : IgnoresInput g (State.sendingEvent · i sent) :=
  .ite (fun _ => rfl) ((endPoll _).comp (countTicks i)) (.ite (fun _ => rfl) (fun _ => rfl) (deadlines i))

theorem awaitingEvent (i : Inputs) : IgnoresInput g (State.awaitingEvent · i) :=
  .ite (fun _ => rfl) (fun _ => rfl) (.ite (fun _ => rfl) (fun _ => rfl) (deadlines i))

theorem endSleep : IgnoresInput g State.endSleep :=
  .ite (fun _ => rfl) (fun _ => rfl) fun _ => rfl

end IgnoresInput

/-- The edge that ends a period, after which its input vector is gone. -/
def edge (r : Result) : Result := andThen r fun t => .next t.endPeriod

section Edges

variable {g : Inputs → Inputs} {s : State}

theorem edge_next_mapInput {f : State → State} (hf : IgnoresInput g f) :
    edge (.next (f (s.mapInput g))) = edge (.next (f s)) := by
  rw [hf s]
  exact congrArg Host.Outcome.next (State.endPeriod_mapInput g (f s))

/-- POLL alone reads the input vector of its period, and of it link_ok. -/
theorem edge_exec_mapInput (hlink : (s.mapInput g).input.linkOk = s.input.linkOk) (i : Instr) :
    edge (exec i (s.mapInput g)) = edge (exec i s) := by
  cases i with
  | poll =>
    have hpoll : exec .poll (s.mapInput g)
        = .next ((s.mapInput g).whenAccepted (State.startPoll · s.input.linkOk)) := by
      rw [← hlink]
      rfl
    rw [hpoll]
    exact edge_next_mapInput (IgnoresInput.startPoll s.input.linkOk).whenAccepted
  | regRd a => exact edge_next_mapInput (f := (State.sampleReg · a)) fun _ => rfl
  | regWr a w =>
    exact edge_next_mapInput ((IgnoresInput.writeReg a w).whenAccepted.comp (f := (State.sampleReg · a)) fun _ => rfl)
  | nop | lchkGen | lchkChk | fchkClr | fchkAdd | fchkGet | fchkChk | illegal =>
    refine edge_next_mapInput (IgnoresInput.whenAccepted ?_)
    exact fun _ => rfl

theorem edge_commandPhase_mapInput (hlink : (s.mapInput g).input.linkOk = s.input.linkOk) (i : Inputs) :
    edge (commandPhase i (s.mapInput g)) = edge (commandPhase i s) := by
  unfold commandPhase
  split
  · exact edge_exec_mapInput hlink _
  · exact edge_next_mapInput (f := fun s => s) fun _ => rfl

theorem edge_advanceCycle_mapInput (s : State) : edge (s.mapInput g).advanceCycle = edge s.advanceCycle := by
  unfold State.advanceCycle
  rw [State.mapInput_toBlock]
  split
  · exact edge_next_mapInput (f := fun s => { s with pos := _, stepT := 0#16, fsm := .advance }) fun _ => rfl
  · rfl

theorem edge_validatingPeriod_mapInput (i : Inputs) :
    edge (validatingPeriod i (s.mapInput g)) = edge (validatingPeriod i s) := by
  unfold validatingPeriod
  rw [State.mapInput_toBlock, State.mapInput_params, State.mapInput_frame]
  split
  · rfl
  · dsimp only
    split
    · refine edge_next_mapInput
        (f := fun u => (((u.countPoll i).record (validate s.params s.frame)).commit s.captured).endPoll .ok) ?_
      exact fun _ => rfl
    · exact edge_advanceCycle_mapInput ((s.countPoll i).record (validate s.params s.frame))

theorem edge_advancePeriod_mapInput (i : Inputs) :
    edge (advancePeriod i (s.mapInput g)) = edge (advancePeriod i s) :=
  edge_next_mapInput (f := fun s => if s.outerDue i then (s.countTicks i).endPoll .failPollTimeout
      else if s.stepDue i then (s.countTicks i).endSleep else s.countTicks i)
    (.ite (fun _ => rfl) ((IgnoresInput.endPoll _).comp (.countTicks i))
      (.ite (fun _ => rfl) (IgnoresInput.endSleep.comp (.countTicks i)) (.countTicks i)))

theorem sendingPeriod_noRequest (i : Inputs) (hreq : s.request = none) : sendingPeriod i s = .fault .romAddress := by
  rw [sendingPeriod, hreq]

/-- Outside CAPTURING the capture step drops the byte, and the rest of the period does not look at it. -/
theorem sendingPeriod_dropped (i : Inputs) (hs : s.rxState ≠ .capturing) {req : List Byte}
    (hreq : s.request = some req) :
    sendingPeriod i s = .next ((s.transfer i).sendingEvent i (decide (s.sendIdx = req.length))) := by
  rw [sendingPeriod, hreq, State.capture_dropped i hs]
  rfl

theorem awaitingPeriod_dropped (i : Inputs) (hs : s.rxState ≠ .capturing) :
    awaitingPeriod i s = .next (s.awaitingEvent i) := by
  rw [awaitingPeriod, State.capture_dropped i hs]
  rfl

theorem edge_sendingPeriod_mapInput (i : Inputs) (hs : s.rxState ≠ .capturing) :
    edge (sendingPeriod i (s.mapInput g)) = edge (sendingPeriod i s) := by
  cases hreq : s.request with
  | none => rw [sendingPeriod_noRequest i hreq, sendingPeriod_noRequest (s := s.mapInput g) i hreq]
  | some req =>
    rw [sendingPeriod_dropped i hs hreq, sendingPeriod_dropped (s := s.mapInput g) i hs hreq]
    exact edge_next_mapInput ((IgnoresInput.sendingEvent i _).comp (.transfer i))

theorem edge_awaitingPeriod_mapInput (i : Inputs) (hs : s.rxState ≠ .capturing) :
    edge (awaitingPeriod i (s.mapInput g)) = edge (awaitingPeriod i s) := by
  rw [awaitingPeriod_dropped i hs, awaitingPeriod_dropped (s := s.mapInput g) i hs]
  exact edge_next_mapInput (IgnoresInput.awaitingEvent i)

/-- A period that begins in pre does not capture: the capture window is closed (R226). -/
def WindowClosed (pre : Fsm) (s : State) : Prop := (pre ≠ .sending ∧ pre ≠ .awaiting) ∨ s.rxState ≠ .capturing

theorem edge_acquire_mapInput {pre : Fsm} (hw : WindowClosed pre s) (i : Inputs) :
    edge (acquire pre i (s.mapInput g)) = edge (acquire pre i s) := by
  cases pre with
  | idle => exact edge_next_mapInput (f := fun s => s) fun _ => rfl
  | sending => exact edge_sendingPeriod_mapInput i (hw.resolve_left fun h => h.1 rfl)
  | awaiting => exact edge_awaitingPeriod_mapInput i (hw.resolve_left fun h => h.2 rfl)
  | validating => exact edge_validatingPeriod_mapInput i
  | advance => exact edge_advancePeriod_mapInput i

end Edges

section Dropped

variable {s : State} {valid : Bool} {data : Byte}

/-- The input vector with another received byte, or none. -/
def withRx (valid : Bool) (data : Byte) (i : Inputs) : Inputs := { i with rxValid := valid, rxData := data }

/-- Only the capture step reads the received byte. -/
theorem acquire_withRx {pre : Fsm} (hw : WindowClosed pre s) (i : Inputs) :
    acquire pre (withRx valid data i) s = acquire pre i s := by
  cases pre with
  | sending =>
    have hs := hw.resolve_left fun h => h.1 rfl
    cases hreq : s.request with
    | none => exact (sendingPeriod_noRequest _ hreq).trans (sendingPeriod_noRequest _ hreq).symm
    | some req => exact (sendingPeriod_dropped _ hs hreq).trans (sendingPeriod_dropped i hs hreq).symm
  | awaiting =>
    have hs := hw.resolve_left fun h => h.2 rfl
    exact (awaitingPeriod_dropped _ hs).trans (awaitingPeriod_dropped i hs).symm
  | idle | validating | advance => rfl

theorem State.afterPort_withRx (hin : (s.mapInput (withRx valid data)).input = withRx valid data s.input) :
    (s.mapInput (withRx valid data)).afterPort = s.afterPort.mapInput (withRx valid data) := by
  unfold State.afterPort
  rw [hin, show (withRx valid data s.input).regWe = s.input.regWe from rfl]
  split
  · exact IgnoresInput.writeReg _ _ (s.beginPeriod.sampleReg s.input.regAddr)
  · rfl

/-- A step in whose input vector the received byte is exchanged, by the three kinds of step. -/
theorem step_withRx (hw : WindowClosed s.fsm s)
    (hin : (s.mapInput (withRx valid data)).input = withRx valid data s.input) :
    step (s.mapInput (withRx valid data)) = step s := by
  have hrst : (s.mapInput (withRx valid data)).input.rst = s.input.rst := by rw [hin]; rfl
  cases hr : s.input.rst with
  | true =>
    rw [step_reset hr, step_reset (hrst.trans hr), hin]
    exact edge_next_mapInput (f := fun u => (u.sampleReg s.input.regAddr).resetBlock) fun _ => rfl
  | false =>
    by_cases hi : s.fsm = .idle
    · have hlink : (s.afterPort.mapInput (withRx valid data)).input.linkOk = s.afterPort.input.linkOk := by
        rw [← State.afterPort_withRx hin, State.afterPort_input, State.afterPort_input, hin]
        rfl
      rw [step_idle hr hi, step_idle (hrst.trans hr) hi, State.afterPort_withRx hin, hin]
      exact edge_commandPhase_mapInput hlink s.input
    · have hstart : (s.mapInput (withRx valid data)).busyStart = s.busyStart.mapInput (withRx valid data) := by
        rw [State.busyStart, hin]
        rfl
      have hclosed : WindowClosed s.fsm s.busyStart := hw
      rw [step_busy hr hi, step_busy (hrst.trans hr) hi, hstart, hin, State.mapInput_toBlock,
        acquire_withRx (s := s.busyStart.mapInput _) hclosed]
      exact edge_acquire_mapInput hclosed s.input

end Dropped

/-- Settles O46: the exchange of the received byte is lost at the edge that ends the period. -/
theorem bytesOutsideCaptureWindowAreDropped : Obligations.BytesOutsideCaptureWindowAreDropped := by
  intro s i rest valid data hw hs
  have hscript : ({ s with script := withRx valid data i :: rest } : State) = s.mapInput (withRx valid data) := by
    rw [State.mapInput, hs]
    rfl
  have hin : (s.mapInput (withRx valid data)).input = withRx valid data s.input := by
    rw [← hscript, State.input, State.input, hs]
  exact (congrArg step hscript).trans (step_withRx hw hin)

end Sys2Proof.Machine
end

section
/-! PROOFS. What the periods of a running poll share (44_acquisition_fsm.md R251): poll_t counts the tick, the host's
registers keep, and an attempt is counted at the end of a sleep alone. -/

namespace Sys2Proof.Machine

open Sys2Proof.Safety

/-- The state with other contents of what the capture step and a transfer write: the response buffer and send_idx. -/
def State.withWindow (s : State) (m : Memory) (n : Nat) (x : RxState) (k : Nat) : State :=
  { s with rxb := m, rxN := n, rxState := x, sendIdx := k }

section Window

variable {s t u : State} {i : Inputs}

theorem eq_withWindow_of_capture (hu : s.capture i = .next u) :
    u = s.withWindow u.rxb u.rxN u.rxState s.sendIdx := State.capture_frame hu

theorem transfer_eq_withWindow (s : State) (i : Inputs) :
    s.transfer i = s.withWindow s.rxb s.rxN s.rxState (s.transfer i).sendIdx := by
  rcases s.transfer_cases i with ⟨-, -, e⟩ | ⟨-, e⟩ <;> rw [e] <;> rfl

/-- A SENDING period is its event, on what its capture step and its transfer leave. -/
theorem sendingPeriod_window (h : sendingPeriod i s = .next t) :
    ∃ m n x k sent, t = (s.withWindow m n x k).sendingEvent i sent := by
  obtain ⟨req, u, -, hu, rfl⟩ := sendingPeriod_cases h
  rw [transfer_eq_withWindow u, eq_withWindow_of_capture hu]
  exact ⟨_, _, _, _, _, rfl⟩

/-- An AWAITING period is its event, on what its capture step leaves. -/
theorem awaitingPeriod_window (h : awaitingPeriod i s = .next t) :
    ∃ m n x, t = (s.withWindow m n x s.sendIdx).awaitingEvent i := by
  obtain ⟨u, hu, rfl⟩ := awaitingPeriod_cases h
  rw [eq_withWindow_of_capture hu]
  exact ⟨_, _, _, rfl⟩

end Window

/-- What every period of a running poll does beside its event. -/
structure PollPeriod (i : Inputs) (s t : State) : Prop where
  pollT : t.pollT = BitVec.ofNat 24 (s.pollSum i)
  attempts : t.attempts = s.attempts ∨ s.fsm = .advance ∧ t.attempts = s.attempts + 1#3
  host : sameHostRegisters s t
  script : t.script = s.script

section Frame

variable {s t : State} {i : Inputs}

/-- poll_t as a number (60_exceptions.md R331). -/
theorem PollPeriod.pollT_toNat (h : PollPeriod i s t) :
    t.pollT.toNat = min (s.pollT.toNat + i.tick.toNat) (2 ^ 24 - 1) := by
  rw [h.pollT, BitVec.toNat_ofNat, State.pollSum]
  omega

theorem pollPeriod_deadlines (s : State) (i : Inputs) : PollPeriod i s (s.deadlines i) := by
  rcases s.deadlines_cases i with ⟨-, e⟩ | ⟨-, -, e⟩ | ⟨-, -, e⟩ <;> rw [e] <;>
    exact ⟨rfl, .inl rfl, ⟨rfl, rfl, rfl, rfl⟩, rfl⟩

theorem pollPeriod_sendingEvent (s : State) (i : Inputs) (sent : Bool) : PollPeriod i s (s.sendingEvent i sent) := by
  rcases s.sendingEvent_cases i sent with ⟨-, e⟩ | ⟨-, -, -, e⟩ | ⟨-, -, e⟩ <;> rw [e]
  · exact ⟨rfl, .inl rfl, ⟨rfl, rfl, rfl, rfl⟩, rfl⟩
  · exact ⟨rfl, .inl rfl, ⟨rfl, rfl, rfl, rfl⟩, rfl⟩
  · exact pollPeriod_deadlines s i

theorem pollPeriod_awaitingEvent (s : State) (i : Inputs) : PollPeriod i s (s.awaitingEvent i) := by
  rcases s.awaitingEvent_cases i with ⟨-, e⟩ | ⟨-, -, e⟩ | ⟨-, -, e⟩ <;> rw [e]
  · exact ⟨rfl, .inl rfl, ⟨rfl, rfl, rfl, rfl⟩, rfl⟩
  · exact ⟨rfl, .inl rfl, ⟨rfl, rfl, rfl, rfl⟩, rfl⟩
  · exact pollPeriod_deadlines s i

theorem pollPeriod_validatingPeriod (ht : validatingPeriod i s = .next t) : PollPeriod i s t := by
  rcases validatingPeriod_cases ht with ⟨-, rfl⟩ | ⟨-, -, rfl⟩ <;>
    exact ⟨rfl, .inl rfl, ⟨rfl, rfl, rfl, rfl⟩, rfl⟩

theorem pollPeriod_endSleep (hf : s.fsm = .advance) : PollPeriod i s (s.countTicks i).endSleep := by
  rcases (s.countTicks i).endSleep_cases with ⟨-, e⟩ | ⟨-, e⟩ <;> rw [e]
  · exact ⟨rfl, .inl rfl, ⟨rfl, rfl, rfl, rfl⟩, rfl⟩
  · exact ⟨rfl, .inr ⟨hf, rfl⟩, ⟨rfl, rfl, rfl, rfl⟩, rfl⟩

theorem pollPeriod_advancePeriod (hf : s.fsm = .advance) (ht : advancePeriod i s = .next t) : PollPeriod i s t := by
  rcases advancePeriod_cases ht with ⟨-, rfl⟩ | ⟨-, -, rfl⟩ | ⟨-, -, rfl⟩
  · exact ⟨rfl, .inl rfl, ⟨rfl, rfl, rfl, rfl⟩, rfl⟩
  · exact pollPeriod_endSleep hf
  · exact ⟨rfl, .inl rfl, ⟨rfl, rfl, rfl, rfl⟩, rfl⟩

theorem pollPeriod_acquire (hb : s.fsm ≠ .idle) (ht : acquire s.fsm i s = .next t) : PollPeriod i s t := by
  cases hf : s.fsm <;> rw [hf] at ht
  case idle => exact absurd hf hb
  case sending =>
    obtain ⟨m, n, x, k, sent, rfl⟩ := sendingPeriod_window ht
    exact { pollPeriod_sendingEvent (s.withWindow m n x k) i sent with }
  case awaiting =>
    obtain ⟨m, n, x, rfl⟩ := awaitingPeriod_window ht
    exact { pollPeriod_awaitingEvent (s.withWindow m n x s.sendIdx) i with }
  case validating => exact pollPeriod_validatingPeriod ht
  case advance => exact pollPeriod_advancePeriod hf ht

theorem validatingPeriod_valid (i : Inputs) (hn : s.rxN ≤ s.params.rxBufMax)
    (hv : (validate s.params s.frame).reason = .valid) :
    validatingPeriod i s
      = .next ((((s.countPoll i).record (validate s.params s.frame)).commit s.captured).endPoll .ok) := by
  unfold validatingPeriod
  rw [if_neg fun hfull => Nat.not_lt.2 hn hfull.2]
  exact if_pos hv

/-- A step of a running poll: its period, and its input vector used up. -/
theorem step_busy_cases (hr : s.input.rst = false) (hb : s.fsm ≠ .idle) (h : step s = .next t) :
    ∃ u, acquire s.fsm s.input s.busyStart = .next u ∧ t = u.endPeriod := by
  rw [step_busy hr hb, andThen_eq_next] at h
  exact h.imp fun _ hu => ⟨hu.1, (Host.Outcome.next.inj hu.2).symm⟩

end Frame

end Sys2Proof.Machine
end

section
/-! PROOFS. The bound on the poll timer (44_acquisition_fsm.md R272): each state of an attempt allows it so many ticks, every
period leads to a state that allows its tick too, and an attempt allows 3·step_budget+1. -/

namespace Sys2Proof.Safety

open Sys2Proof.Machine

/-- The most ticks that the attempts before this one took. -/
def ticksBefore (s : State) : Nat := (s.attempts.toNat - 1) * attemptTicks s

/-- The most ticks that this attempt can have taken so far. -/
def ticksSoFar (s : State) : Nat :=
  match s.fsm with
  | .idle => 0
  | .sending => s.stepT.toNat
  | .awaiting => s.stepBudget.toNat + s.stepT.toNat
  | .validating => 2 * s.stepBudget.toNat
  | .advance => 2 * s.stepBudget.toNat + 1 + s.stepT.toNat

section Bound

variable {s t : State} {i : Inputs}

theorem pollTimerOk_iff (hb : s.fsm ≠ .idle) : pollTimerOk s ↔ s.pollT.toNat ≤ ticksBefore s + ticksSoFar s := by
  cases hf : s.fsm <;> simp [pollTimerOk, ticksSoFar, ticksBefore, hf, Nat.add_assoc]
  exact absurd hf hb

theorem pollTimerOk_of_idle (hf : s.fsm = .idle) : pollTimerOk s := by simp [pollTimerOk, hf]

theorem Inv.stepT_lt (h : Inv s) (hb : s.fsm ≠ .idle) (hv : s.fsm ≠ .validating) :
    s.stepT.toNat < s.stepBudget.toNat := by
  have h := h.timer
  cases hf : s.fsm <;> simp only [timerOk, hf] at h
  case idle => exact absurd hf hb
  case validating => exact absurd hf hv
  all_goals exact h

theorem Inv.attempts_pos (h : Inv s) (hb : s.fsm ≠ .idle) : 1 ≤ s.attempts.toNat := by
  have h := h.position
  cases hf : s.fsm <;> simp only [positionOk, hf] at h
  case idle => exact absurd hf hb
  all_goals omega

/-- Below the step budget the step timer counts without wrapping (log 14). -/
theorem countTicks_stepT_toNat (hlt : s.stepT.toNat < s.stepBudget.toNat) :
    (s.countTicks i).stepT.toNat = s.stepT.toNat + i.tick.toNat := by
  have htick := i.tick.toNat_le
  have hbudget := s.stepBudget.isLt
  exact Nat.mod_eq_of_lt (show s.stepT.toNat + i.tick.toNat < 2 ^ 16 by omega)

/-- A period that counts its tick keeps the bound where the state it leads to leaves room for the tick. -/
theorem pollTimerOk_of_room (h : pollTimerOk s) (hb : s.fsm ≠ .idle) (ht : t.pollT = BitVec.ofNat 24 (s.pollSum i))
    (hroom : ticksBefore s + (ticksSoFar s + i.tick.toNat) ≤ ticksBefore t + ticksSoFar t) : pollTimerOk t := by
  by_cases hi : t.fsm = .idle
  · exact pollTimerOk_of_idle hi
  · rw [pollTimerOk_iff hb] at h
    have hcount : t.pollT.toNat ≤ s.pollT.toNat + i.tick.toNat := by
      rw [ht]
      exact (Nat.mod_le _ _).trans (Nat.min_le_left _ _)
    exact (pollTimerOk_iff hi).2 (by omega)

theorem pollTimerOk_countTicks (h : pollTimerOk s) (hb : s.fsm ≠ .idle) (hv : s.fsm ≠ .validating)
    (hlt : s.stepT.toNat < s.stepBudget.toNat) : pollTimerOk (s.countTicks i) := by
  have hroom : ticksSoFar s + i.tick.toNat ≤ ticksSoFar (s.countTicks i) := by
    have hstep := countTicks_stepT_toNat (i := i) hlt
    cases hf : s.fsm <;> simp only [ticksSoFar, State.countTicks_fsm, State.countTicks_stepBudget, hf, hstep]
    case idle => exact absurd hf hb
    case validating => exact absurd hf hv
    all_goals omega
  exact pollTimerOk_of_room h hb rfl (Nat.add_le_add_left hroom _)

theorem pollTimerOk_deadlines (h : pollTimerOk s) (hb : s.fsm ≠ .idle) (hv : s.fsm ≠ .validating)
    (hlt : s.stepT.toNat < s.stepBudget.toNat) : pollTimerOk (s.deadlines i) := by
  rcases s.deadlines_cases i with ⟨-, e⟩ | ⟨-, -, e⟩ | ⟨-, -, e⟩ <;> rw [e]
  · exact pollTimerOk_of_idle rfl
  · exact pollTimerOk_of_idle rfl
  · exact pollTimerOk_countTicks h hb hv hlt

/-- In SENDING step_t is below the budget, so with the tick it is within the allowance of AWAITING. -/
theorem pollTimerOk_sendingEvent (h : pollTimerOk s) (hf : s.fsm = .sending)
    (hlt : s.stepT.toNat < s.stepBudget.toNat) (sent : Bool) : pollTimerOk (s.sendingEvent i sent) := by
  have hb : s.fsm ≠ .idle := by simp [hf]
  have htick := i.tick.toNat_le
  rcases s.sendingEvent_cases i sent with ⟨-, e⟩ | ⟨-, -, -, e⟩ | ⟨-, -, e⟩ <;> rw [e]
  · exact pollTimerOk_of_idle rfl
  · have hroom : ticksSoFar s + i.tick.toNat ≤ s.stepBudget.toNat := by
      simp only [ticksSoFar, hf]
      omega
    exact pollTimerOk_of_room h hb rfl (Nat.add_le_add_left hroom _)
  · exact pollTimerOk_deadlines h hb (by simp [hf]) hlt

/-- In AWAITING likewise: step_t and the tick are within the second step budget. -/
theorem pollTimerOk_enterValidating (h : pollTimerOk s) (hf : s.fsm = .awaiting)
    (hlt : s.stepT.toNat < s.stepBudget.toNat) (x : RxState) :
    pollTimerOk { s.countTicks i with rxState := x, fsm := .validating } := by
  have htick := i.tick.toNat_le
  have hroom : ticksSoFar s + i.tick.toNat ≤ 2 * s.stepBudget.toNat := by
    simp only [ticksSoFar, hf]
    omega
  exact pollTimerOk_of_room h (by simp [hf]) rfl (Nat.add_le_add_left hroom _)

theorem pollTimerOk_awaitingEvent (h : pollTimerOk s) (hf : s.fsm = .awaiting)
    (hlt : s.stepT.toNat < s.stepBudget.toNat) : pollTimerOk (s.awaitingEvent i) := by
  rcases s.awaitingEvent_cases i with ⟨-, e⟩ | ⟨-, -, e⟩ | ⟨-, -, e⟩ <;> rw [e]
  · exact pollTimerOk_enterValidating h hf hlt s.rxState
  · exact pollTimerOk_enterValidating h hf hlt .null
  · exact pollTimerOk_deadlines h (by simp [hf]) (by simp [hf]) hlt

/-- The one period of VALIDATING has the one tick that an attempt takes beside its three step budgets. -/
theorem pollTimerOk_validatingPeriod (h : pollTimerOk s) (hf : s.fsm = .validating)
    (ht : validatingPeriod i s = .next t) : pollTimerOk t := by
  have htick := i.tick.toNat_le
  rcases validatingPeriod_cases ht with ⟨-, rfl⟩ | ⟨-, -, rfl⟩
  · exact pollTimerOk_of_idle rfl
  · have hroom : ticksSoFar s + i.tick.toNat ≤ 2 * s.stepBudget.toNat + 1 + 0 := by
      simp only [ticksSoFar, hf]
      omega
    exact pollTimerOk_of_room h (by simp [hf]) rfl (Nat.add_le_add_left hroom _)

theorem ticksBefore_add_attemptTicks (ha : 1 ≤ s.attempts.toNat) :
    ticksBefore s + attemptTicks s = s.attempts.toNat * attemptTicks s := by
  rw [ticksBefore, ← Nat.succ_mul, Nat.succ_eq_add_one, Nat.sub_add_cancel ha]

/-- In ADVANCE attempts is at most pos, so the next attempt is counted without wrapping (log 14). -/
theorem Inv.next_attempt (h : Inv s) (hf : s.fsm = .advance) : (s.attempts + 1#3).toNat = s.attempts.toNat + 1 := by
  have hpos := s.pos.isLt
  have ha : 1 ≤ s.attempts.toNat ∧ s.attempts.toNat ≤ s.pos.val := by simpa only [positionOk, hf] using h.position
  rw [BitVec.toNat_add]
  exact Nat.mod_eq_of_lt (show s.attempts.toNat + 1 < 8 by omega)

/-- The end of the sleep leaves an attempt within its 3·step_budget+1 ticks, which the next one has before it. -/
theorem pollTimerOk_endSleep (hinv : Inv s) (h : pollTimerOk s) (hf : s.fsm = .advance) :
    pollTimerOk (s.countTicks i).endSleep := by
  have hb : s.fsm ≠ .idle := by simp [hf]
  have htick := i.tick.toNat_le
  have hlt := hinv.stepT_lt hb (by simp [hf])
  rcases (s.countTicks i).endSleep_cases with ⟨-, e⟩ | ⟨-, e⟩ <;> rw [e]
  · exact pollTimerOk_of_idle rfl
  · have hroom : ticksSoFar s + i.tick.toNat ≤ attemptTicks s := by
      simp only [ticksSoFar, attemptTicks, hf]
      omega
    have hbefore : ticksBefore { s.countTicks i with attempts := s.attempts + 1#3 }
        = ticksBefore s + attemptTicks s := by
      rw [ticksBefore_add_attemptTicks (hinv.attempts_pos hb), ticksBefore]
      exact congrArg (fun n => (n - 1) * attemptTicks s) (hinv.next_attempt hf)
    refine pollTimerOk_of_room h hb rfl ?_
    show _ ≤ ticksBefore { s.countTicks i with attempts := s.attempts + 1#3 } + 0
    rw [hbefore]
    exact Nat.add_le_add_left hroom _

theorem pollTimerOk_acquire (hinv : Inv s) (h : pollTimerOk s) (ht : acquire s.fsm i s = .next t) :
    pollTimerOk t := by
  cases hf : s.fsm <;> rw [hf] at ht
  case idle =>
    obtain rfl := Host.Outcome.next.inj ht
    exact h
  case sending =>
    have hlt := hinv.stepT_lt (by simp [hf]) (by simp [hf])
    obtain ⟨m, n, x, k, sent, rfl⟩ := sendingPeriod_window ht
    exact pollTimerOk_sendingEvent (s := s.withWindow m n x k) h hf hlt sent
  case awaiting =>
    have hlt := hinv.stepT_lt (by simp [hf]) (by simp [hf])
    obtain ⟨m, n, x, rfl⟩ := awaitingPeriod_window ht
    exact pollTimerOk_awaitingEvent (s := s.withWindow m n x s.sendIdx) h hf hlt
  case validating => exact pollTimerOk_validatingPeriod h hf ht
  case advance =>
    rcases advancePeriod_cases ht with ⟨-, rfl⟩ | ⟨-, -, rfl⟩ | ⟨-, -, rfl⟩
    · exact pollTimerOk_of_idle rfl
    · exact pollTimerOk_endSleep hinv h hf
    · exact pollTimerOk_countTicks h (by simp [hf]) (by simp [hf]) (hinv.stepT_lt (by simp [hf]) (by simp [hf]))

/-- A poll starts with poll_t at 0. -/
theorem pollTimerOk_startPoll (s : State) (link : Bool) : pollTimerOk (s.startPoll link) := by
  rcases s.startPoll_cases link with ⟨-, e⟩ | ⟨-, -, e⟩ | ⟨-, -, e⟩ <;> rw [e]
  · exact pollTimerOk_of_idle rfl
  · exact pollTimerOk_of_idle rfl
  · exact Nat.zero_le _

theorem pollTimerOk_commandPhase (hf : s.fsm = .idle) (ht : commandPhase i s = .next t) : pollTimerOk t := by
  unfold commandPhase at ht
  split at ht
  · rcases exec_command_idle hf ht with ⟨c, d, a, -, -, -, rfl⟩ | ⟨-, rfl⟩
    · exact pollTimerOk_of_idle hf
    · exact pollTimerOk_startPoll s _
  · obtain rfl := Host.Outcome.next.inj ht
    exact pollTimerOk_of_idle hf

end Bound

/-- Settles O52, by the three kinds of step; in a running poll by the room each event leaves for the period's tick. -/
theorem stepKeepsPollTimerBound : Obligations.StepKeepsPollTimerBound := by
  intro s t hinv h ht
  rcases step_cases ht with ⟨-, rfl⟩ | ⟨-, hf, u, hu, rfl⟩ | ⟨-, -, u, hu, rfl⟩
  · exact pollTimerOk_of_idle rfl
  · have hk : pollTimerOk u := pollTimerOk_commandPhase (by simpa using hf) hu
    exact hk
  · have hk : pollTimerOk u := pollTimerOk_acquire hinv.busyStart h hu
    exact hk

end Sys2Proof.Safety
end

section
/-! PROOFS. A running poll goes on and ends (44_acquisition_fsm.md R269 (f), R272): a good state has a next state, poll_t
counts every tick of it, and it has counted fewer than the attempts allow. -/

namespace Sys2Proof.Safety

open Sys2Proof.Machine

section Completes

variable {s : State} {i : Inputs}

theorem commandPhase_completes (i : Inputs) (s : State) : ∃ t, commandPhase i s = .next t := by
  unfold commandPhase
  split
  · exact exec_completes _ s
  · exact ⟨s, rfl⟩

theorem sendingPeriod_completes (hp : s.pos.val ≤ 5) (hn : s.rxN ≤ s.params.rxBufMax) :
    ∃ t, sendingPeriod i s = .next t := by
  obtain ⟨req, hreq⟩ := request_exists hp
  obtain ⟨u, hu⟩ := State.capture_completes i hn
  rw [sendingPeriod, hreq, hu]
  exact ⟨_, rfl⟩

theorem awaitingPeriod_completes (hn : s.rxN ≤ s.params.rxBufMax) : ∃ t, awaitingPeriod i s = .next t := by
  obtain ⟨u, hu⟩ := State.capture_completes i hn
  rw [awaitingPeriod, hu]
  exact ⟨_, rfl⟩

theorem validatingPeriod_completes (hp : s.pos.val ≤ 5) (hn : s.rxN ≤ s.params.rxBufMax) :
    ∃ t, validatingPeriod i s = .next t := by
  by_cases hv : (validate s.params s.frame).reason = .valid
  · exact ⟨_, validatingPeriod_valid i hn hv⟩
  · exact ⟨_, validatingPeriod_invalid i hn (Nat.lt_succ_of_le (Nat.succ_le_succ hp)) hv⟩

theorem Inv.acquire_completes (h : Inv s) : ∃ t, Machine.acquire s.fsm i s = .next t := by
  have hn := h.countFits
  have hp : s.fsm ≠ .idle → s.fsm ≠ .advance → s.pos.val ≤ 5 := fun hb ha => (h.attempt_position hb ha).1
  cases hf : s.fsm <;> rw [hf] at hp
  case idle => exact ⟨s, rfl⟩
  case sending => exact sendingPeriod_completes (hp nofun nofun) hn
  case awaiting => exact awaitingPeriod_completes hn
  case validating => exact validatingPeriod_completes (hp nofun nofun) hn
  case advance => exact ⟨_, rfl⟩

end Completes

/-- Settles O51: the three faults belong to positions and counts outside the invariant (log 9, log 10, log 11). -/
theorem goodStateNeverStops : Obligations.GoodStateNeverStops := by
  intro s h
  cases hr : s.input.rst with
  | true => exact ⟨_, step_reset hr⟩
  | false =>
    by_cases hf : s.fsm = .idle
    · obtain ⟨u, hu⟩ := commandPhase_completes s.input s.afterPort
      rw [step_idle hr hf, hu]
      exact ⟨_, rfl⟩
    · obtain ⟨u, hu⟩ := h.busyStart.acquire_completes (i := s.input)
      have hu : Machine.acquire s.fsm s.input s.busyStart = .next u := hu
      rw [step_busy hr hf, hu]
      exact ⟨_, rfl⟩

section Counting

variable {s t : State}

theorem ticksSoFar_lt_attemptTicks (hinv : Inv s) : ticksSoFar s < attemptTicks s := by
  have h := hinv.timer
  cases hf : s.fsm <;> simp only [ticksSoFar, attemptTicks, timerOk, hf] at h ⊢ <;> omega

/-- Each attempt has a tick in hand while its poll runs. -/
theorem pollT_lt_of_pollTimerOk (hinv : Inv s) (h : pollTimerOk s) (hb : s.fsm ≠ .idle) :
    s.pollT.toNat < s.attempts.toNat * (3 * s.stepBudget.toNat + 1) := by
  have hsofar := ticksSoFar_lt_attemptTicks hinv
  have htotal := ticksBefore_add_attemptTicks (hinv.attempts_pos hb)
  have hbound := (pollTimerOk_iff hb).1 h
  unfold attemptTicks at hsofar htotal
  omega

/-- A poll has at most six attempts (10_state.md R40). -/
theorem attempts_mul_le (hinv : Inv s) :
    s.attempts.toNat * (3 * s.stepBudget.toNat + 1) ≤ 18 * s.stepBudget.toNat + 6 :=
  (Nat.mul_le_mul_right _ hinv.attempts_le_six).trans_eq (by omega)

/-- What a step of a running poll counts and keeps, of all that the poll's length depends on. -/
structure Counted (s t : State) : Prop where
  pollT : t.pollT.toNat = s.pollT.toNat + s.input.tick.toNat
  attempts : s.attempts.toNat ≤ t.attempts.toNat
  stepBudget : t.stepBudget = s.stepBudget
  script : t.script = s.script.tail

theorem counted_step (hinv : Inv s) (h : pollTimerOk s) (hb : s.fsm ≠ .idle) (hr : s.input.rst = false)
    (ht : step s = .next t) : Counted s t := by
  obtain ⟨u, hu, rfl⟩ := step_busy_cases hr hb ht
  have hp := pollPeriod_acquire (s := s.busyStart) hb hu
  have hmin : u.pollT.toNat = min (s.pollT.toNat + s.input.tick.toNat) (2 ^ 24 - 1) := hp.pollT_toNat
  obtain ⟨-, hattempts, ⟨hbudget, -, -, -⟩, hscript⟩ := hp
  have hlt := pollT_lt_of_pollTimerOk hinv h hb
  have hle := attempts_mul_le hinv
  have hmax := s.stepBudget.isLt
  have htick := s.input.tick.toNat_le
  have hcount : u.pollT.toNat = s.pollT.toNat + s.input.tick.toNat := by omega
  refine ⟨hcount, ?_, hbudget, congrArg List.tail hscript⟩
  rcases hattempts with e | ⟨hf, e⟩
  · exact Nat.le_of_eq (congrArg BitVec.toNat e.symm)
  · have hnext : u.attempts.toNat = s.attempts.toNat + 1 := (congrArg BitVec.toNat e).trans (hinv.next_attempt hf)
    exact hnext ▸ Nat.le_succ _

end Counting

/-- Settles O53: poll_t is below the attempts' allowance, which six attempts bound below its saturation value. -/
theorem pollTimerNeverSaturates : Obligations.PollTimerNeverSaturates := by
  intro s hinv h hb
  have hlt := pollT_lt_of_pollTimerOk hinv h hb
  have hle := attempts_mul_le hinv
  have hmax := s.stepBudget.isLt
  refine ⟨by omega, fun t hr ht => ?_⟩
  have hc := counted_step hinv h hb hr ht
  have htick := s.input.tick.toNat_le
  have hattempts := Nat.mul_le_mul_right (3 * s.stepBudget.toNat + 1) hc.attempts
  rw [hc.pollT, hc.stepBudget]
  omega

/-- A poll that ticks in each of n periods ends in them, if n more ticks use up what six attempts allow. -/
theorem run_to_idle {n : Nat} {s : State} (hinv : Inv s) (h : pollTimerOk s) (hb : s.fsm ≠ .idle)
    (hn : 18 * s.stepBudget.toNat + 6 ≤ s.pollT.toNat + n)
    (hscript : ∀ k, k < n → ∃ i, s.script[k]? = some i ∧ i.rst = false ∧ i.tick = true) :
    ∃ k t, k ≤ n ∧ Sys2Proof.core.run k s = .next t ∧ t.fsm = .idle := by
  induction n generalizing s with
  | zero =>
    have hlt := pollT_lt_of_pollTimerOk hinv h hb
    have hle := attempts_mul_le hinv
    omega
  | succ n ih =>
    obtain ⟨⟨hr, htick⟩, hrest⟩ := input_of_script (P := fun _ i => i.rst = false ∧ i.tick = true) hscript
    obtain ⟨u, hu⟩ := goodStateNeverStops s hinv
    by_cases hi : u.fsm = .idle
    · exact ⟨1, u, Nat.le_add_left 1 n, run_succ_of_step hu 0, hi⟩
    · have hc := counted_step hinv h hb hr hu
      have hpoll := hc.pollT
      rw [htick, Bool.toNat_true] at hpoll
      have hroom : 18 * u.stepBudget.toNat + 6 ≤ u.pollT.toNat + n := by
        rw [hc.stepBudget]
        omega
      obtain ⟨k, t, hk, ht, hend⟩ := ih (stepKeepsInvariant s u hinv hu) (stepKeepsPollTimerBound s u hinv h hu) hi
        hroom (by rw [hc.script]; exact hrest)
      exact ⟨k + 1, t, Nat.succ_le_succ hk, (run_succ_of_step hu k).trans ht, hend⟩

/-- Settles O54: the periods given are one more than the ticks a poll can count. -/
theorem tickingPollEnds : Obligations.TickingPollEnds := fun _ hinv h hb hscript =>
  run_to_idle hinv h hb (by omega) hscript

end Sys2Proof.Safety
end

section
/-! PROOFS. The periods of SENDING, AWAITING and ADVANCE by their events, in the spec's order (44_acquisition_fsm.md R256,
R258, R264, R265, R267, R268). -/

namespace Sys2Proof.Machine

open Sys2Proof.Safety

/-- What the host reads of the last poll is as it was. -/
structure KeepsRecords (s t : State) : Prop where
  resValid : t.resValid = s.resValid
  reading : sameReading s t
  diagnostics : sameDiagnostics s t

/-- What no event of SENDING or AWAITING changes. -/
structure KeepsAttempt (s t : State) : Prop extends KeepsRecords s t where
  pos : t.pos = s.pos
  sendIdx : t.sendIdx = s.sendIdx

section Events

variable {s t : State} {i : Inputs}

theorem keepsAttempt_deadlines (s : State) (i : Inputs) : KeepsAttempt s (s.deadlines i) := by
  rcases s.deadlines_cases i with ⟨-, e⟩ | ⟨-, -, e⟩ | ⟨-, -, e⟩ <;> rw [e] <;>
    exact ⟨⟨rfl, ⟨rfl, rfl⟩, ⟨rfl, rfl, rfl⟩⟩, rfl, rfl⟩

theorem keepsAttempt_sendingEvent (s : State) (i : Inputs) (sent : Bool) : KeepsAttempt s (s.sendingEvent i sent) := by
  rcases s.sendingEvent_cases i sent with ⟨-, e⟩ | ⟨-, -, -, e⟩ | ⟨-, -, e⟩ <;> rw [e]
  · exact ⟨⟨rfl, ⟨rfl, rfl⟩, ⟨rfl, rfl, rfl⟩⟩, rfl, rfl⟩
  · exact ⟨⟨rfl, ⟨rfl, rfl⟩, ⟨rfl, rfl, rfl⟩⟩, rfl, rfl⟩
  · exact keepsAttempt_deadlines s i

theorem keepsAttempt_awaitingEvent (s : State) (i : Inputs) : KeepsAttempt s (s.awaitingEvent i) := by
  rcases s.awaitingEvent_cases i with ⟨-, e⟩ | ⟨-, -, e⟩ | ⟨-, -, e⟩ <;> rw [e]
  · exact ⟨⟨rfl, ⟨rfl, rfl⟩, ⟨rfl, rfl, rfl⟩⟩, rfl, rfl⟩
  · exact ⟨⟨rfl, ⟨rfl, rfl⟩, ⟨rfl, rfl, rfl⟩⟩, rfl, rfl⟩
  · exact keepsAttempt_deadlines s i

theorem keepsRecords_endSleep (s : State) : KeepsRecords s s.endSleep := by
  rcases s.endSleep_cases with ⟨-, e⟩ | ⟨-, e⟩ <;> rw [e] <;> exact ⟨rfl, ⟨rfl, rfl⟩, ⟨rfl, rfl, rfl⟩⟩

theorem keepsRecords_advancePeriod (h : advancePeriod i s = .next t) : KeepsRecords s t := by
  rcases advancePeriod_cases h with ⟨-, rfl⟩ | ⟨-, -, rfl⟩ | ⟨-, -, rfl⟩
  · exact ⟨rfl, ⟨rfl, rfl⟩, ⟨rfl, rfl, rfl⟩⟩
  · exact { keepsRecords_endSleep (s.countTicks i) with }
  · exact ⟨rfl, ⟨rfl, rfl⟩, ⟨rfl, rfl, rfl⟩⟩

theorem sameBytes_advancePeriod (h : advancePeriod i s = .next t) : sameBytes s t := by
  rcases advancePeriod_cases h with ⟨-, rfl⟩ | ⟨-, -, rfl⟩ | ⟨-, -, rfl⟩
  · exact fun _ => rfl
  · exact fun j => congrArg (Memory.read · j) (IgnoresBuffer.endSleep.rxb (s.countTicks i))
  · exact fun _ => rfl

theorem outerDue_iff : s.outerDue s.input = true ↔ outerDeadline s := by
  simp [State.outerDue, State.pollSum, outerDeadline]

theorem stepDue_iff : s.stepDue s.input = true ↔ stepDeadline s := decide_eq_true_iff

theorem deadlines_stepT (s : State) (i : Inputs) : (s.deadlines i).stepT = BitVec.ofNat 16 (s.stepSum i) := by
  rcases s.deadlines_cases i with ⟨-, e⟩ | ⟨-, -, e⟩ | ⟨-, -, e⟩ <;> rw [e] <;> rfl

theorem awaitingEvent_stepT (s : State) (i : Inputs) :
    (s.awaitingEvent i).stepT = BitVec.ofNat 16 (s.stepSum i) := by
  rcases s.awaitingEvent_cases i with ⟨-, e⟩ | ⟨-, -, e⟩ | ⟨-, -, e⟩ <;> rw [e]
  · rfl
  · rfl
  · exact deadlines_stepT s i

/-- What end_poll leaves for the host at the edge (44_acquisition_fsm.md R266). -/
theorem endedWith_endPoll (s : State) (code : RespCode) : endedWith code s.attempts (s.endPoll code).endPeriod :=
  ⟨rfl, rfl, rfl, rfl, rfl, rfl⟩

end Events

/-! The events in the words of the statements, for a period that begins in s -/

section Conditions

variable {s t u : State} {m : Memory} {n : Nat} {x : RxState} {k : Nat}

/-- What the capture step and the transfer of the period that begins in s leave. -/
def State.afterWindow (s : State) (m : Memory) (n : Nat) (x : RxState) (k : Nat) : State :=
  s.busyStart.withWindow m n x k

theorem deadlines_afterWindow :
    (s.afterWindow m n x k).deadlines s.input =
      if outerDeadline s then ((s.afterWindow m n x k).countTicks s.input).endPoll .failPollTimeout
      else if stepDeadline s then ((s.afterWindow m n x k).countTicks s.input).endPoll .failStepTimeout
      else (s.afterWindow m n x k).countTicks s.input :=
  if_congr outerDue_iff rfl (if_congr stepDue_iff rfl rfl)

theorem sendingEvent_afterWindow {len : Nat} :
    (s.afterWindow m n x k).sendingEvent s.input (decide (s.sendIdx = len)) =
      if s.input.txErr = true then ((s.afterWindow m n x k).countTicks s.input).endPoll .failTransportIo
      else if s.sendIdx = len ∧ s.input.txDrained = true then
        ((s.afterWindow m n x k).countTicks s.input).enterAwaiting
      else (s.afterWindow m n x k).deadlines s.input :=
  if_congr Iff.rfl rfl (if_congr (by simp) rfl rfl)

theorem awaitingEvent_afterWindow (hc : x = .complete ↔ frameComplete s) (hn : x = .null ↔ responseNull s) :
    (s.afterWindow m n x k).awaitingEvent s.input =
      if frameComplete s then { (s.afterWindow m n x k).countTicks s.input with fsm := .validating }
      else if responseNull s ∨ s.input.rxErr = true then
        { (s.afterWindow m n x k).countTicks s.input with rxState := .null, fsm := .validating }
      else (s.afterWindow m n x k).deadlines s.input :=
  if_congr hc rfl (if_congr (or_congr_left hn) rfl rfl)

theorem advancePeriod_busyStart :
    advancePeriod s.input s.busyStart = .next
      (if outerDeadline s then (s.busyStart.countTicks s.input).endPoll .failPollTimeout
      else if stepDeadline s then
        if 6 ≤ s.pos.val then State.endPoll { s.busyStart.countTicks s.input with pos := 0 } .failCycleExhausted
        else State.enterSending { s.busyStart.countTicks s.input with attempts := s.attempts + 1#3 }
      else s.busyStart.countTicks s.input) :=
  congrArg Host.Outcome.next (if_congr outerDue_iff rfl (if_congr stepDue_iff rfl rfl))

theorem step_advance (hf : s.fsm = .advance) (hr : s.input.rst = false)
    (ht : advancePeriod s.input s.busyStart = .next t) : step s = .next t.endPeriod := by
  rw [step_busy hr (by simp [hf]), hf, acquire, ht]
  rfl

/-- A SENDING period counts its transfer, whatever its event is (43_transport_framing.md R224). -/
theorem step_sending_window {req : List Byte} (hf : s.fsm = .sending) (hr : s.input.rst = false)
    (hreq : s.request = some req) (hn : s.rxN ≤ s.params.rxBufMax) :
    ∃ m n x, step s = .next ((s.afterWindow m n x
        (s.sendIdx + if s.sendIdx < req.length ∧ s.input.txReady = true then 1 else 0)).sendingEvent s.input
          (decide (s.sendIdx = req.length))).endPeriod := by
  obtain ⟨u, hu⟩ := State.capture_completes (s := s.busyStart) s.input hn
  have hstep := step_sending hf hr hreq hu
  have hwindow := eq_withWindow_of_capture hu
  have htx : u.txValid = decide (s.sendIdx < req.length) := by
    rw [hwindow]
    exact State.txValid_sending (s := s.busyStart.withWindow u.rxb u.rxN u.rxState s.sendIdx) hf hreq
  have hidx : (u.transfer s.input).sendIdx
      = s.sendIdx + if s.sendIdx < req.length ∧ s.input.txReady = true then 1 else 0 := by
    rw [State.transfer_sendIdx, htx, show u.sendIdx = s.sendIdx by rw [hwindow]; rfl]
    simp only [Bool.and_eq_true, decide_eq_true_eq]
    split <;> rfl
  rw [transfer_eq_withWindow u, hidx, hwindow] at hstep
  exact ⟨_, _, _, hstep⟩

theorem step_awaiting_window (hf : s.fsm = .awaiting) (hr : s.input.rst = false) (hn : s.rxN ≤ s.params.rxBufMax) :
    ∃ m n x, (x = .complete ↔ frameComplete s) ∧ (x = .null ↔ responseNull s)
      ∧ step s = .next ((s.afterWindow m n x s.sendIdx).awaitingEvent s.input).endPeriod := by
  obtain ⟨u, hu⟩ := State.capture_completes (s := s.busyStart) s.input hn
  have hstep := step_awaiting hf hr hu
  obtain ⟨hc, hnull⟩ := capture_rxState hu
  rw [eq_withWindow_of_capture hu] at hstep
  exact ⟨_, _, _, hc, hnull, hstep⟩

end Conditions

/-- Settles O41: the transfer is counted before the event, and each event is the first whose condition holds. -/
theorem sendingPeriodEvents : Obligations.SendingPeriodEvents := by
  intro s req hf hr hreq hn
  obtain ⟨m, n, x, hstep⟩ := step_sending_window hf hr hreq hn
  generalize s.sendIdx + (if s.sendIdx < req.length ∧ s.input.txReady = true then 1 else 0) = k at hstep ⊢
  have hk := keepsAttempt_sendingEvent (s.afterWindow m n x k) s.input (decide (s.sendIdx = req.length))
  have hp := pollPeriod_sendingEvent (s.afterWindow m n x k) s.input (decide (s.sendIdx = req.length))
  refine ⟨_, hstep, hk.sendIdx, hp.pollT_toNat, hk.pos, hk.resValid, hk.reading, hk.diagnostics, hp.host, ?_⟩
  rw [sendingEvent_afterWindow, deadlines_afterWindow]
  split_ifs
  · exact ⟨endedWith_endPoll _ _, rfl⟩
  · exact ⟨rfl, rfl, rfl, rfl, rfl, rfl, rfl⟩
  · exact ⟨endedWith_endPoll _ _, rfl⟩
  · exact ⟨endedWith_endPoll _ _, rfl⟩
  · exact ⟨hf, rfl, rfl, rfl, rfl, rfl, rfl⟩

/-- Settles O42: what the capture step leaves decides the first two events, and CAPTURING is left by the others. -/
theorem awaitingPeriodEvents : Obligations.AwaitingPeriodEvents := by
  intro s hf hr hn
  obtain ⟨m, n, x, hcomplete, hnull, hstep⟩ := step_awaiting_window hf hr hn
  have hk := keepsAttempt_awaitingEvent (s.afterWindow m n x s.sendIdx) s.input
  have hp := pollPeriod_awaitingEvent (s.afterWindow m n x s.sendIdx) s.input
  have hcapturing : ¬frameComplete s → ¬responseNull s → x = .capturing := by
    rw [← hcomplete, ← hnull]
    cases x <;> simp
  refine ⟨_, hstep, hk.sendIdx, awaitingEvent_stepT _ _, hp.pollT_toNat, hk.pos, hk.resValid, hk.reading,
    hk.diagnostics, hp.host, ?_⟩
  rw [awaitingEvent_afterWindow hcomplete hnull, deadlines_afterWindow]
  split_ifs with hc h0
  · exact ⟨rfl, hcomplete.2 hc, rfl, rfl, rfl, rfl, rfl⟩
  · exact ⟨rfl, rfl, rfl, rfl, rfl, rfl, rfl⟩
  all_goals have hx := hcapturing hc fun h => h0 (.inl h)
  · exact ⟨endedWith_endPoll _ _, hx⟩
  · exact ⟨endedWith_endPoll _ _, hx⟩
  · exact ⟨hf, hx, rfl, rfl, rfl, rfl, rfl⟩

/-- Settles O44: the outer deadline goes before the end of the sleep, which position 6 makes the end of the poll. -/
theorem advancePeriodEvents : Obligations.AdvancePeriodEvents := by
  intro s hf hr
  have ht := advancePeriod_busyStart (s := s)
  have hk := keepsRecords_advancePeriod ht
  have hp := pollPeriod_advancePeriod (s := s.busyStart) hf ht
  have hb := sameBytes_advancePeriod ht
  refine ⟨_, step_advance hf hr ht, hp.pollT_toNat, hk.resValid, hk.reading, hk.diagnostics, hp.host, hb, ?_⟩
  split_ifs
  · exact ⟨endedWith_endPoll _ _, rfl, rfl, rfl, rfl, rfl, fun _ => rfl⟩
  · exact ⟨endedWith_endPoll _ _, rfl, rfl, rfl, rfl, rfl, fun _ => rfl⟩
  · exact ⟨rfl, rfl, rfl, rfl, rfl, rfl, rfl, rfl, rfl, rfl, rfl⟩
  · exact ⟨hf, rfl, rfl, rfl, ⟨rfl, rfl, rfl, fun _ => rfl⟩, rfl, rfl, rfl, rfl⟩

end Sys2Proof.Machine
end

section
/-! PROOFS. The one period of VALIDATING (44_acquisition_fsm.md R261..R263): a FrameInvalid advances the cycle, a VALID frame
is committed, each field as the number its four characters write (41_telemetry_decoder.md R153). -/

namespace Sys2Proof.Machine

open Sys2Proof.Safety

section Fields

variable {p : Params} {f : List Byte}

/-- The decoded windows of a VALID frame hold hex digits (42_frame_validation.md R195). -/
theorem hexChar_of_valid (h : (validate p (some f)).reason = .valid) {x : Nat} (hx : inWindow x) :
    hexChar (charAt f (13 + x)) = true := by
  have hpass := orderedChecks_pass_of_valid h
    (.bodyFormat, !(allHexChars f 15 23 && allHexChars f 25 101 && allHexChars f 103 123 && allHexChars f 127 131
      && allHexChars f 137 141)) (by simp [orderedChecks])
  simp only [Bool.not_eq_false', Bool.and_eq_true, allHexChars_iff] at hpass
  obtain ⟨⟨⟨⟨h1, h2⟩, h3⟩, h4⟩, h5⟩ := hpass
  rcases hx with hx | hx | hx | hx | hx
  · exact h1 _ (by omega) (by omega)
  · exact h2 _ (by omega) (by omega)
  · exact h3 _ (by omega) (by omega)
  · exact h4 _ (by omega) (by omega)
  · exact h5 _ (by omega) (by omega)

/-- A field of a VALID frame is the number its four characters write. -/
theorem field_toNat_of_valid (h : (validate p (some f)).reason = .valid) {o : Nat} (ho : fieldInWindow o) :
    (field f o).toNat = numberAt f (13 + o) := by
  refine hexAt_toNat fun y hlo hhi => ?_
  obtain ⟨x, rfl⟩ := Nat.exists_eq_add_of_le (show 13 ≤ y by omega)
  exact hexChar_of_valid h (inWindow_of_fieldInWindow ho (by omega) (by omega))

end Fields

/-- Settles O43: the verdict's writes, and the cycle advanced. -/
theorem frameInvalidAdvancesCycle : Obligations.FrameInvalidAdvancesCycle := by
  intro s hf hr hp hn hv
  have hp : s.pos.val + 1 < 7 := Nat.lt_succ_of_le (Nat.succ_le_succ hp)
  have ht := validatingPeriod_invalid (s := s.busyStart) s.input hn hp hv
  have hperiod := pollPeriod_validatingPeriod ht
  rw [step_validating hf hr, ht]
  exact ⟨_, rfl, rfl, rfl, rfl, hperiod.pollT_toNat, rfl, rfl, rfl, rfl, rfl, ⟨rfl, rfl⟩, hperiod.host,
    ⟨rfl, rfl, rfl, fun _ => rfl⟩, rfl, rfl, rfl, rfl⟩

/-- Settles O37: the committed reading is the decoder's, whose fields lie in the windows of a VALID frame. -/
theorem successCommitsReading : Obligations.SuccessCommitsReading := by
  intro s f hf hr hframe hn hv
  have hcaptured : s.captured = f := by
    unfold State.frame at hframe
    split at hframe
    · exact Option.some.inj hframe
    · cases hframe
  have ht := validatingPeriod_valid (s := s.busyStart) s.input hn (hframe ▸ hv)
  have hperiod := pollPeriod_validatingPeriod ht
  have hfield : ∀ o, fieldInWindow o → (field s.captured o).toNat = numberAt f (13 + o) := by
    rw [hcaptured]
    exact fun o => field_toNat_of_valid hv
  unfold fieldInWindow at hfield
  have hcell : ∀ i : Fin 16, ((readingOf s.captured).cell[i.val]).toNat = numberAt f (13 + 12 + 4 * i.val) := by
    intro i
    rw [readingOf, Vector.getElem_ofFn, hfield _ (by omega), Nat.add_assoc]
  have htaux : ∀ j : Fin 4, ((readingOf s.captured).taux[j.val]).toNat = numberAt f (13 + 90 + 4 * j.val) := by
    intro j
    rw [readingOf, Vector.getElem_ofFn, hfield _ (by omega), Nat.add_assoc]
  have henergy : (readingOf s.captured).energy.toNat = numberAt f (13 + 6) * numberAt f (13 + 124) := by
    rw [readingOf, energyOf_toNat, capacityOf, hfield 6 (by omega), hfield 124 (by omega)]
  rw [step_validating hf hr, ht]
  exact ⟨_, rfl, hfield 2 (by omega), hfield 6 (by omega), hcell, hfield 76 (by omega), hfield 80 (by omega),
    hfield 84 (by omega), htaux, hfield 106 (by omega), hfield 114 (by omega), hfield 124 (by omega), henergy, rfl, rfl,
    endedWith_endPoll _ _, hperiod.pollT_toNat, rfl, ⟨rfl, rfl, rfl, fun _ => rfl⟩, hperiod.host⟩

end Sys2Proof.Machine
end

section
/-! PROOFS. What a step can do to the polling cycle and to the reading (44_acquisition_fsm.md R269 (c), (d), (e)). -/

namespace Sys2Proof.Machine

open Sys2Proof.Safety

/-- No reading is written and res_valid does not rise. -/
def keepsReading (s t : State) : Prop := sameReading s t ∧ (t.resValid = true → s.resValid = true)

/-- Why a period that begins in s can end the poll with an exhausted cycle: the end of the sleep (R265), or the acceptance
of a POLL (R254). -/
def exhaustionCause (s : State) : Prop :=
  s.fsm = .advance
    ∨ s.fsm = .idle ∧ s.input.cmdValid = true ∧ decodeCmd s.input.cmdWord = .poll ∧ s.input.linkOk = true

/-- The four things that a step with rst = 0 can do to pos, each with what it does to the reading. -/
inductive CycleStep (s t : State) : Prop
  | kept (hpos : t.pos = s.pos) (hreading : keepsReading s t)
  | advanced (hpos : t.pos.val = s.pos.val + 1) (hreading : keepsReading s t) (hf : s.fsm = .validating)
      (hv : (validate s.params s.frame).reason ≠ .valid) (hnext : t.fsm = .advance) (hresp : t.respValid = false)
  | committed (hpos : t.pos = 0) (hf : s.fsm = .validating) (hv : (validate s.params s.frame).reason = .valid)
      (hres : t.resValid = true) (hend : endedWith .ok s.attempts t)
  | exhausted (n : BitVec 3) (hpos : t.pos = 0) (hreading : keepsReading s t) (hsix : 6 ≤ s.pos.val)
      (hcause : exhaustionCause s) (hend : endedWith .failCycleExhausted n t)

section Cycle

variable {s t : State} {i : Inputs}

theorem KeepsRecords.keepsReading (h : KeepsRecords s t) : keepsReading s t :=
  ⟨h.reading, fun hr => h.resValid ▸ hr⟩

theorem keepsAttempt_afterPort (s : State) : KeepsAttempt s s.afterPort := by
  refine ⟨⟨?_, ⟨?_, ?_⟩, ?_, ?_, ?_⟩, ?_, ?_⟩ <;> rw [State.afterPort_toBlock]

theorem cycleStep_startPoll (hf : s.fsm = .idle) (hv : s.input.cmdValid = true)
    (hw : decodeCmd s.input.cmdWord = .poll) :
    CycleStep s (s.afterPort.startPoll s.input.linkOk).endPeriod := by
  have hk := keepsAttempt_afterPort s
  rcases s.afterPort.startPoll_cases s.input.linkOk with ⟨-, e⟩ | ⟨hlink, hp, e⟩ | ⟨-, -, e⟩ <;> rw [e]
  · exact .kept hk.pos ⟨hk.reading, nofun⟩
  · exact .exhausted 0#3 rfl ⟨hk.reading, nofun⟩ (hk.pos ▸ hp) (.inr ⟨hf, hv, hw, hlink⟩) (endedWith_endPoll _ _)
  · exact .kept hk.pos ⟨hk.reading, nofun⟩

theorem cycleStep_commandPhase (hf : s.fsm = .idle) (ht : commandPhase s.input s.afterPort = .next t) :
    CycleStep s t.endPeriod := by
  have hk := keepsAttempt_afterPort s
  unfold commandPhase at ht
  split at ht
  · rename_i hv
    rcases exec_command_idle (s := s.afterPort) (by simpa using hf) ht with ⟨c, d, a, -, -, -, rfl⟩ | ⟨hw, rfl⟩
    · exact .kept hk.pos hk.keepsReading
    · rw [State.afterPort_input]
      exact cycleStep_startPoll hf hv hw
  · obtain rfl := Host.Outcome.next.inj ht
    exact .kept hk.pos hk.keepsReading

theorem cycleStep_validatingPeriod (hf : s.fsm = .validating)
    (ht : validatingPeriod s.input s.busyStart = .next t) : CycleStep s t.endPeriod := by
  rcases validatingPeriod_cases ht with ⟨hv, rfl⟩ | ⟨hv, hp, rfl⟩
  · exact .committed rfl hf hv rfl (endedWith_endPoll _ _)
  · exact .advanced rfl ⟨⟨rfl, rfl⟩, fun hr => hr⟩ hf hv rfl rfl

theorem cycleStep_advancePeriod (hf : s.fsm = .advance) (ht : advancePeriod s.input s.busyStart = .next t) :
    CycleStep s t.endPeriod := by
  have hk : keepsReading s t := (keepsRecords_advancePeriod ht).keepsReading
  rcases advancePeriod_cases ht with ⟨-, rfl⟩ | ⟨-, -, rfl⟩ | ⟨-, -, rfl⟩
  · exact .kept rfl hk
  · rcases (s.busyStart.countTicks s.input).endSleep_cases with ⟨hsix, e⟩ | ⟨-, e⟩ <;> rw [e] at hk ⊢
    · exact .exhausted _ rfl hk hsix (.inl hf) (endedWith_endPoll _ _)
    · exact .kept rfl hk
  · exact .kept rfl hk

theorem cycleStep_acquire (ht : acquire s.fsm s.input s.busyStart = .next t) : CycleStep s t.endPeriod := by
  cases hf : s.fsm <;> rw [hf] at ht
  case idle =>
    obtain rfl := Host.Outcome.next.inj ht
    exact .kept rfl ⟨⟨rfl, rfl⟩, fun hr => hr⟩
  case sending =>
    obtain ⟨m, n, x, k, sent, rfl⟩ := sendingPeriod_window ht
    have hk := keepsAttempt_sendingEvent (s.afterWindow m n x k) s.input sent
    exact .kept hk.pos hk.keepsReading
  case awaiting =>
    obtain ⟨m, n, x, rfl⟩ := awaitingPeriod_window ht
    have hk := keepsAttempt_awaitingEvent (s.afterWindow m n x s.sendIdx) s.input
    exact .kept hk.pos hk.keepsReading
  case validating => exact cycleStep_validatingPeriod hf ht
  case advance => exact cycleStep_advancePeriod hf ht

theorem cycleStep_step (hr : s.input.rst = false) (ht : step s = .next t) : CycleStep s t := by
  rcases step_cases ht with ⟨hr', -⟩ | ⟨-, hf, u, hu, rfl⟩ | ⟨-, -, u, hu, rfl⟩
  · simp [hr] at hr'
  · exact cycleStep_commandPhase hf hu
  · exact cycleStep_acquire hu

end Cycle

/-- Settles O55: no change of pos leaves one of the four failures as the response. -/
theorem positionChangesOnlyByTheCycle : Obligations.PositionChangesOnlyByTheCycle := by
  intro s t hr ht
  cases cycleStep_step hr ht with
  | kept hpos => exact ⟨.inl hpos, fun _ _ => hpos⟩
  | advanced hpos _ hf hv hnext hresp => exact ⟨.inr (.inl ⟨hpos, hf, hnext, hv⟩), by simp [hresp]⟩
  | committed hpos hf hv _ hend =>
    obtain ⟨hidle, hvalid, hcode, -⟩ := hend
    exact ⟨.inr (.inr (.inl ⟨hpos, hidle, hvalid, hcode, hf, hv⟩)), by simp [hcode]⟩
  | exhausted n hpos _ hsix hcause hend =>
    obtain ⟨hidle, hvalid, hcode, -⟩ := hend
    exact ⟨.inr (.inr (.inr ⟨hpos, hidle, hvalid, hcode, hsix, hcause⟩)), by simp [hcode]⟩

/-- Settles O56: of the four, the commit alone writes the reading. -/
theorem onlySuccessWritesReading : Obligations.OnlySuccessWritesReading := by
  intro s t hr ht hwrite
  have hnot : ¬keepsReading s t := by
    rintro ⟨hsame, hvalid⟩
    rcases hwrite with hchange | ⟨hfalse, htrue⟩
    · exact hchange hsame
    · simp [hvalid htrue] at hfalse
  cases cycleStep_step hr ht with
  | kept _ hreading | advanced _ hreading | exhausted _ _ hreading => exact absurd hreading hnot
  | committed _ hf hv hres hend =>
    obtain ⟨hidle, hresp, hcode, -, houtcome, -⟩ := hend
    exact ⟨hf, hv, hidle, hres, hresp, hcode, houtcome⟩

end Sys2Proof.Machine
end

section
/-! PROOFS. The acceptance of POLL (44_acquisition_fsm.md R252..R255), and a step as the instructions it decodes (R251). -/

namespace Sys2Proof.Machine

open Sys2Proof.Safety

theorem exec_poll_idle {s : State} (hf : s.fsm = .idle) : exec .poll s = .next (s.startPoll s.input.linkOk) :=
  congrArg Host.Outcome.next (State.whenAccepted_idle _ hf)

/-- The end of a poll that has sent no request responds with data 0. -/
theorem endPoll_of_no_attempt {s : State} (ha : s.attempts = 0#3) (code : RespCode) :
    s.endPoll code = { s with
      respValid := true, respCode := code, respData := 0#16, lastOutcome := code, fsm := .idle } := by
  have hdata : 0#13 ++ s.attempts = 0#16 := by rw [ha]; decide
  rw [State.endPoll, hdata]
  rfl

/-- Settles O9: the end of the poll at once, without the connection. -/
theorem pollWithoutConnectionFails : Obligations.PollWithoutConnectionFails := by
  intro s hf hlink
  rw [exec_poll_idle hf, hlink]
  exact congrArg Host.Outcome.next (endPoll_of_no_attempt
    (s := { s with resValid := false, attempts := 0#3, pollT := 0#24 }) rfl .failConnection)

/-- Settles O10: the end of the poll at once, behind the last position. -/
theorem pollPastLastPositionReportsExhausted : Obligations.PollPastLastPositionReportsExhausted := by
  intro s hf hlink hp
  rw [exec_poll_idle hf, hlink]
  rcases s.startPoll_cases true with ⟨h, -⟩ | ⟨-, -, e⟩ | ⟨-, hp', -⟩
  · cases h
  · rw [e, endPoll_of_no_attempt rfl]
  · omega

/-- Settles O11: the entry to SENDING, at a position that has a request. -/
theorem pollEntersSending : Obligations.PollEntersSending := by
  refine ⟨decodeCmd_poll, fun s hf hlink hp => ?_⟩
  rw [exec_poll_idle hf, hlink]
  rcases s.startPoll_cases true with ⟨h, -⟩ | ⟨-, hp', -⟩ | ⟨-, -, e⟩
  · cases h
  · omega
  · obtain ⟨req, hreq⟩ := request_exists hp
    have hne : s.request ≠ none := by simp [hreq]
    exact ⟨_, rfl, e, by rw [e]; rfl, by rw [e]; exact hne⟩

/-- Settles O17: the parts of a period are what it decodes; in IDLE the running poll has none. -/
theorem stepRunsDecodedInstructions : Obligations.StepRunsDecodedInstructions := by
  have hstep : ∀ s : State, s.input.rst = false → step s = runPeriod s.input s := fun s hr => by
    rw [step, clockPeriod, hr]
    rfl
  refine ⟨hstep, fun s hr hf hv => ?_⟩
  exact ⟨s.afterPort, registerPhase_idle s.input hf, step_idle_command hr hf hv⟩

end Sys2Proof.Machine
end

section
/-! PROOFS. NOP, ILLEGAL and the register writes (45_host_commands.md R301, R302, R304, R306): what each does in IDLE, a
write of a budget in the period of a POLL among them. -/

namespace Sys2Proof.Machine

open Sys2Proof.Safety

theorem exec_nop_idle {s : State} (hs : s.fsm = .idle) : exec .nop s = .next (s.respond .ok 0#16) :=
  congrArg Host.Outcome.next (State.whenAccepted_idle _ hs)

/-- Settles O1: the response of NOP. -/
theorem nopRespondsOk : Obligations.NopRespondsOk := ⟨decodeCmd_nop, fun _ => exec_nop_idle⟩

/-- Settles O2: the illegal words by their numbers, and the response of ILLEGAL. -/
theorem illegalWordRespondsIllegal : Obligations.IllegalWordRespondsIllegal :=
  ⟨fun _ hw => decodeCmd_of_illegal (wordIsIllegal_iff_toNat.2 hw), fun w _ => exec_illegal_idle w⟩

/-- max(w[15:0], 1) as a number (10_state.md R50). -/
theorem stepBudgetOf_toNat (w : Word) : (stepBudgetOf w).toNat = max (w.toNat % 2 ^ 16) 1 := by
  have hlow : (w.extractLsb' 0 16).toNat = w.toNat % 2 ^ 16 := by simp
  unfold stepBudgetOf
  split
  · rename_i hzero
    rw [← hlow, hzero]
    rfl
  · rename_i hne
    have hpos : (w.extractLsb' 0 16).toNat ≠ 0 := mt (BitVec.eq_of_toNat_eq (y := 0#16)) hne
    rw [← hlow]
    omega

/-- w[23:0] as a number (10_state.md R51). -/
theorem pollBudgetBits_toNat (w : Word) : (w.extractLsb' 0 24).toNat = w.toNat % 2 ^ 24 := by simp

/-- A write as a choice between the numbers of the two budgets' addresses. -/
theorem State.writeReg_eq (s : State) (a : RegAddr) (w : Word) :
    s.writeReg a w = { s with
      stepBudget := if a.toNat = 1 then stepBudgetOf w else s.stepBudget
      pollBudget := if a.toNat = 2 then w.extractLsb' 0 24 else s.pollBudget } := by
  have hstep : a.toNat = 1 ↔ a = 0x01#6 := BitVec.toNat_inj (y := 0x01#6)
  have hpoll : a.toNat = 2 ↔ a = 0x02#6 := BitVec.toNat_inj (y := 0x02#6)
  simp only [hstep, hpoll]
  unfold State.writeReg
  split
  · rename_i h
    subst h
    rfl
  · split <;> rfl

theorem exec_regWr_idle (a : RegAddr) (w : Word) {s : State} (hs : s.fsm = .idle) :
    exec (.regWr a w) s = .next ((s.sampleReg a).writeReg a w) :=
  congrArg Host.Outcome.next (State.whenAccepted_idle _ hs)

theorem exec_regWr_busy (a : RegAddr) (w : Word) {s : State} (hs : s.fsm ≠ .idle) :
    exec (.regWr a w) s = .next (s.sampleReg a) :=
  congrArg Host.Outcome.next (State.whenAccepted_busy _ hs)

/-- Settles O14: the accepted write and the dropped one, the stored bits as numbers. -/
theorem registerWriteStoresBudgets : Obligations.RegisterWriteStoresBudgets := by
  refine ⟨fun _ _ => rfl, fun a w s hs => ?_, fun a w s => exec_regWr_busy a w⟩
  have hstep : stepBudgetOf w = BitVec.ofNat 16 (max (w.toNat % 2 ^ 16) 1) := by
    rw [← stepBudgetOf_toNat, BitVec.ofNat_toNat, BitVec.setWidth_eq]
  have hpoll : w.extractLsb' 0 24 = BitVec.ofNat 24 (w.toNat % 2 ^ 24) := by
    rw [← pollBudgetBits_toNat, BitVec.ofNat_toNat, BitVec.setWidth_eq]
  rw [exec_regWr_idle a w hs, State.writeReg_eq, hstep, hpoll]
  rfl

/-- The register write of an IDLE period, before its command (R306). -/
theorem State.afterPort_write {s : State} (h : s.input.regWe = true) :
    s.afterPort = { s.beginPeriod.sampleReg s.input.regAddr with
      stepBudget := if s.input.regAddr.toNat = 1 then stepBudgetOf s.input.regWdata else s.stepBudget
      pollBudget := if s.input.regAddr.toNat = 2 then s.input.regWdata.extractLsb' 0 24 else s.pollBudget } :=
  (if_pos h).trans (State.writeReg_eq _ _ _)

/-- A step that begins in IDLE with the link up and a request left to send, and a POLL presented (R253, R255). -/
theorem step_poll_accepted {s : State} (hf : s.fsm = .idle) (hr : s.input.rst = false) (hv : s.input.cmdValid = true)
    (hw : decodeCmd s.input.cmdWord = .poll) (hlink : s.input.linkOk = true) (hp : s.pos.val ≤ 5) :
    step s = .next
      (State.enterSending { s.afterPort with resValid := false, attempts := 1#3, pollT := 0#24 }).endPeriod := by
  have hfa : s.afterPort.fsm = .idle := by rw [State.afterPort_fsm, hf]
  have hpa : s.afterPort.pos = s.pos := (keepsAttempt_afterPort s).pos
  rw [step_idle_command hr hf hv, hw, exec_poll_idle hfa, State.afterPort_input, hlink]
  rcases s.afterPort.startPoll_cases true with ⟨h, -⟩ | ⟨-, hp', -⟩ | ⟨-, -, e⟩
  · cases h
  · omega
  · rw [e]
    rfl

/-- Settles O16: the poll starts from what the write left. -/
theorem writeWithPollIsTaken : Obligations.WriteWithPollIsTaken := by
  intro s arg hf hr hv hw hlink hp hwe
  have hpoll : decodeCmd s.input.cmdWord = .poll := by
    rw [hw]
    exact decodeCmd_poll arg
  have hstep := step_poll_accepted hf hr hv hpoll hlink hp
  rw [State.afterPort_write hwe] at hstep
  refine ⟨_, hstep, rfl, rfl, rfl, rfl, rfl, ?_, ?_, rfl, ⟨rfl, rfl⟩, ⟨rfl, rfl, rfl⟩, fun _ => rfl,
    ⟨rfl, rfl, rfl, rfl⟩⟩
  · exact (apply_ite BitVec.toNat _ _ _).trans (if_congr Iff.rfl (stepBudgetOf_toNat _) rfl)
  · exact (apply_ite BitVec.toNat _ _ _).trans (if_congr Iff.rfl (pollBudgetBits_toNat _) rfl)

end Sys2Proof.Machine
end

section
/-! PROOFS. The command port of a busy block (45_host_commands.md R305). A period that does not begin in IDLE does not read
it, so its exchange is lost at the edge, as in the proof of R230. -/

namespace Sys2Proof.Machine

section Edges

variable {g : Inputs → Inputs} {s : State}

theorem State.capture_mapInput (i : Inputs) :
    (s.mapInput g).capture i = andThen (s.capture i) fun u => .next (u.mapInput g) := by
  unfold State.capture
  rw [State.mapInput_toBlock, State.mapInput_params]
  split
  · split
    · rfl
    · split <;> rfl
  · rfl

/-- A capture step, and then an operation that does not read what g changes of the input vector. -/
theorem edge_capture_mapInput {f : State → State} (hf : IgnoresInput g f) (i : Inputs) :
    edge (andThen ((s.mapInput g).capture i) fun u => .next (f u))
      = edge (andThen (s.capture i) fun u => .next (f u)) := by
  rw [State.capture_mapInput]
  cases s.capture i with
  | next u => exact edge_next_mapInput hf
  | fault e => rfl
  | refused e => rfl

/-- No period of a running poll reads its input vector from the script. -/
theorem edge_acquire_mapInput_of_busy {pre : Fsm} (hb : pre ≠ .idle) (i : Inputs) :
    edge (acquire pre i (s.mapInput g)) = edge (acquire pre i s) := by
  cases pre with
  | idle => exact absurd rfl hb
  | sending =>
    unfold acquire sendingPeriod
    rw [State.mapInput_request]
    cases s.request with
    | none => rfl
    | some req => exact edge_capture_mapInput ((IgnoresInput.sendingEvent i _).comp (.transfer i)) i
  | awaiting => exact edge_capture_mapInput (IgnoresInput.awaitingEvent i) i
  | validating => exact edge_validatingPeriod_mapInput i
  | advance => exact edge_advancePeriod_mapInput i

end Edges

section Presented

variable {s : State} {valid : Bool} {word : CmdWord}

/-- The input vector with another command presented, or none. -/
def withCmd (valid : Bool) (word : CmdWord) (i : Inputs) : Inputs := { i with cmdValid := valid, cmdWord := word }

/-- A running poll does not look at the command port. -/
theorem acquire_withCmd (pre : Fsm) (i : Inputs) (s : State) :
    acquire pre (withCmd valid word i) s = acquire pre i s := by
  cases pre <;> rfl

/-- A step of a busy block in whose input vector the command is exchanged, by the two kinds of step. -/
theorem step_withCmd (hb : s.fsm ≠ .idle) (hin : (s.mapInput (withCmd valid word)).input = withCmd valid word s.input) :
    step (s.mapInput (withCmd valid word)) = step s := by
  have hrst : (s.mapInput (withCmd valid word)).input.rst = s.input.rst := by rw [hin]; rfl
  cases hr : s.input.rst with
  | true =>
    rw [step_reset hr, step_reset (hrst.trans hr), hin]
    exact edge_next_mapInput (f := fun u => (u.sampleReg s.input.regAddr).resetBlock) fun _ => rfl
  | false =>
    have hstart : (s.mapInput (withCmd valid word)).busyStart = s.busyStart.mapInput (withCmd valid word) := by
      rw [State.busyStart, hin]
      rfl
    rw [step_busy hr hb, step_busy (hrst.trans hr) hb, hstart, hin, State.mapInput_toBlock, acquire_withCmd]
    exact edge_acquire_mapInput_of_busy hb s.input

end Presented

/-- Settles O15: the exchange of the command is lost at the edge that ends the period. -/
theorem busyBlockIgnoresCommandPort : Obligations.BusyBlockIgnoresCommandPort := by
  intro s i rest valid word hb hs
  refine ⟨decide_eq_false hb, ?_⟩
  have hscript : ({ s with script := withCmd valid word i :: rest } : State) = s.mapInput (withCmd valid word) := by
    rw [State.mapInput, hs]
    rfl
  have hin : (s.mapInput (withCmd valid word)).input = withCmd valid word s.input := by
    rw [← hscript, State.input, State.input, hs]
  exact (congrArg step hscript).trans (step_withCmd hb hin)

end Sys2Proof.Machine
end

section
/-! PROOFS. The response of every operation (45_host_commands.md R300): an operation under way either ends in IDLE with a
response or goes on without one. -/

namespace Sys2Proof.Machine

open Sys2Proof.Safety

/-- What a period does to an operation that is under way in s: it ends it, in IDLE and with a response, or it leaves it
running and the response registers as they were. -/
inductive OperationPeriod (s t : State) : Prop
  | ended (hidle : t.fsm = .idle) (hresp : t.respValid = true)
  | running (hbusy : t.fsm ≠ .idle) (hquiet : noResponse s t)

section Responses

variable {s t : State} {i : Inputs}

/-- No response stands in a state whose resp_valid was cleared. -/
theorem noResponse_self (hv : s.respValid = false) : noResponse s s := ⟨hv, rfl, rfl, rfl⟩

theorem noResponse_afterPort (s : State) : noResponse s s.afterPort := by
  unfold noResponse
  rw [State.afterPort_toBlock]
  exact ⟨rfl, rfl, rfl, rfl⟩

/-- An operation under way in u is under way in s, where no response was made between the two. -/
theorem OperationPeriod.of_quiet {u : State} (h : OperationPeriod u t) (hu : noResponse s u) : OperationPeriod s t := by
  cases h with
  | ended hidle hresp => exact .ended hidle hresp
  | running hbusy hquiet =>
    obtain ⟨-, hcode, hdata, hout⟩ := hu
    obtain ⟨hresp, hcode', hdata', hout'⟩ := hquiet
    exact .running hbusy ⟨hresp, hcode'.trans hcode, hdata'.trans hdata, hout'.trans hout⟩

theorem OperationPeriod.endPeriod (h : OperationPeriod s t) : OperationPeriod s t.endPeriod := by
  cases h with
  | ended hidle hresp => exact .ended hidle hresp
  | running hbusy hquiet => exact .running hbusy hquiet

/-! The events of a running poll -/

theorem operationPeriod_deadlines (hb : s.fsm ≠ .idle) (hv : s.respValid = false) (i : Inputs) :
    OperationPeriod s (s.deadlines i) := by
  rcases s.deadlines_cases i with ⟨-, e⟩ | ⟨-, -, e⟩ | ⟨-, -, e⟩ <;> rw [e]
  · exact .ended rfl rfl
  · exact .ended rfl rfl
  · exact .running hb (noResponse_self hv)

theorem operationPeriod_sendingEvent (hb : s.fsm ≠ .idle) (hv : s.respValid = false) (i : Inputs) (sent : Bool) :
    OperationPeriod s (s.sendingEvent i sent) := by
  rcases s.sendingEvent_cases i sent with ⟨-, e⟩ | ⟨-, -, -, e⟩ | ⟨-, -, e⟩ <;> rw [e]
  · exact .ended rfl rfl
  · exact .running nofun (noResponse_self hv)
  · exact operationPeriod_deadlines hb hv i

theorem operationPeriod_awaitingEvent (hb : s.fsm ≠ .idle) (hv : s.respValid = false) (i : Inputs) :
    OperationPeriod s (s.awaitingEvent i) := by
  rcases s.awaitingEvent_cases i with ⟨-, e⟩ | ⟨-, -, e⟩ | ⟨-, -, e⟩ <;> rw [e]
  · exact .running nofun (noResponse_self hv)
  · exact .running nofun (noResponse_self hv)
  · exact operationPeriod_deadlines hb hv i

theorem operationPeriod_validatingPeriod (hv : s.respValid = false) (ht : validatingPeriod i s = .next t) :
    OperationPeriod s t := by
  rcases validatingPeriod_cases ht with ⟨-, rfl⟩ | ⟨-, -, rfl⟩
  · exact .ended rfl rfl
  · exact .running nofun (noResponse_self hv)

theorem operationPeriod_advancePeriod (hb : s.fsm ≠ .idle) (hv : s.respValid = false)
    (ht : advancePeriod i s = .next t) : OperationPeriod s t := by
  rcases advancePeriod_cases ht with ⟨-, rfl⟩ | ⟨-, -, rfl⟩ | ⟨-, -, rfl⟩
  · exact .ended rfl rfl
  · rcases (s.countTicks i).endSleep_cases with ⟨-, e⟩ | ⟨-, e⟩ <;> rw [e]
    · exact .ended rfl rfl
    · exact .running nofun (noResponse_self hv)
  · exact .running hb (noResponse_self hv)

theorem operationPeriod_acquire (hb : s.fsm ≠ .idle) (hv : s.respValid = false) (ht : acquire s.fsm i s = .next t) :
    OperationPeriod s t := by
  cases hf : s.fsm <;> rw [hf] at ht
  case idle => exact absurd hf hb
  case sending =>
    obtain ⟨m, n, x, k, sent, rfl⟩ := sendingPeriod_window ht
    exact (operationPeriod_sendingEvent (s := s.withWindow m n x k) hb hv i sent).of_quiet (noResponse_self hv)
  case awaiting =>
    obtain ⟨m, n, x, rfl⟩ := awaitingPeriod_window ht
    exact (operationPeriod_awaitingEvent (s := s.withWindow m n x s.sendIdx) hb hv i).of_quiet (noResponse_self hv)
  case validating => exact operationPeriod_validatingPeriod hv ht
  case advance => exact operationPeriod_advancePeriod hb hv ht

/-! The commands -/

theorem operationPeriod_startPoll (hv : s.respValid = false) (link : Bool) : OperationPeriod s (s.startPoll link) := by
  rcases s.startPoll_cases link with ⟨-, e⟩ | ⟨-, -, e⟩ | ⟨-, -, e⟩ <;> rw [e]
  · exact .ended rfl rfl
  · exact .ended rfl rfl
  · exact .running nofun (noResponse_self hv)

theorem operationPeriod_command {w : CmdWord} (hf : s.fsm = .idle) (hv : s.respValid = false)
    (ht : exec (decodeCmd w) s = .next t) : OperationPeriod s t := by
  rcases exec_command_idle hf ht with ⟨c, d, a, -, -, -, rfl⟩ | ⟨-, rfl⟩
  · exact .ended hf rfl
  · exact operationPeriod_startPoll hv _

/-! The step -/

theorem operationPeriod_step (hr : s.input.rst = false) (hop : s.fsm = .idle → s.input.cmdValid = true)
    (ht : step s = .next t) : OperationPeriod s t := by
  by_cases hf : s.fsm = .idle
  · rw [step_idle_command hr hf (hop hf), andThen_eq_next] at ht
    obtain ⟨u, hu, ht⟩ := ht
    obtain rfl := Host.Outcome.next.inj ht
    have hquiet := noResponse_afterPort s
    exact ((operationPeriod_command (by simpa using hf) hquiet.1 hu).of_quiet hquiet).endPeriod
  · obtain ⟨u, hu, rfl⟩ := step_busy_cases hr hf ht
    have hquiet : noResponse s s.busyStart := ⟨rfl, rfl, rfl, rfl⟩
    exact ((operationPeriod_acquire (s := s.busyStart) hf rfl hu).of_quiet hquiet).endPeriod

theorem step_without_operation (hr : s.input.rst = false) (hf : s.fsm = .idle) (hv : s.input.cmdValid = false)
    (ht : step s = .next t) : noResponse s t := by
  rw [step_idle_quiet hr hf hv] at ht
  obtain rfl := Host.Outcome.next.inj ht
  exact noResponse_afterPort s

end Responses

/-- Settles O58: a period in which an operation is under way, and one in which none is. -/
theorem oneResponsePerOperation : Obligations.OneResponsePerOperation := by
  intro s t hr ht
  by_cases hop : s.fsm = .idle → s.input.cmdValid = true
  · cases operationPeriod_step hr hop ht with
    | ended hidle hresp => exact ⟨iff_of_true hresp ⟨hidle, hop⟩, fun h => absurd (hresp.symm.trans h) nofun⟩
    | running hbusy hquiet =>
      obtain ⟨hresp, hcode, hdata, -⟩ := hquiet
      exact ⟨iff_of_false (by simp [hresp]) fun h => hbusy h.1, fun _ => ⟨hcode, hdata⟩⟩
  · obtain ⟨hf, hv⟩ := Classical.not_imp.1 hop
    obtain ⟨hresp, hcode, hdata, -⟩ := step_without_operation hr hf (by simpa using hv) ht
    exact ⟨iff_of_false (by simp [hresp]) fun h => hop h.2, fun _ => ⟨hcode, hdata⟩⟩

end Sys2Proof.Machine
end

section
/-! PROOFS. A quiet period in IDLE (60_exceptions.md R336): clearing resp_valid and sampling the register port are all that
happens in it. -/

namespace Sys2Proof.Machine

/-- No register of the map shows resp_valid (10_state.md R48), so the port reads in a period what s_k held. -/
theorem State.beginPeriod_readReg (s : State) (a : RegAddr) : s.beginPeriod.readReg a = s.readReg a := rfl

/-- A register access that does not write leaves s as a busy period finds it. -/
theorem State.afterPort_read {s : State} (h : s.input.regWe = false) : s.afterPort = s.busyStart :=
  if_neg (by simp [h])

/-- Settles O21: neither a command nor a write, so the period is its beginning, the sample and its end. -/
theorem idlePeriodHolds : Obligations.IdlePeriodHolds := by
  intro s hf hr hv hwe
  rw [step_idle_quiet hr hf hv, State.afterPort_read hwe, State.busyStart, State.sampleReg, State.beginPeriod_readReg]
  rfl

end Sys2Proof.Machine
end

section
/-! PROOFS. Reset (70_reset_and_hazards.md R350, R352): rst = 1 gives the reset block from every state, and the period after
it runs what the host presents in it. -/

namespace Sys2Proof.Machine

/-- Settles O19: a reset period writes the whole block. -/
theorem resetFromAnyState : Obligations.ResetFromAnyState := fun _ hr => ⟨_, step_reset hr, rfl, rfl⟩

section Presented

variable {s : State}

/-- Where no response stands, the beginning of a period has nothing to clear. -/
theorem State.present_beginPeriod (hv : s.respValid = false) (p : PortWord) :
    (s.present p).beginPeriod = s.present p := by
  unfold State.beginPeriod
  rw [← hv]
  rfl

/-- A command presented in IDLE runs after the register access of its period, which samples STATUS. -/
theorem step_present_command (w : CmdWord) (hf : s.fsm = .idle) (hv : s.respValid = false) :
    step (s.present (.cmd w))
      = andThen (exec (decodeCmd w) ((s.present (.cmd w)).sampleReg 0x00#6)) fun t => .next t.endPeriod := by
  have hstep := step_idle_command (s := s.present (.cmd w)) rfl hf rfl
  rw [State.afterPort_read rfl, State.busyStart, State.present_beginPeriod hv] at hstep
  exact hstep

/-- A register access presented in IDLE is all that its period does. -/
theorem step_present_access (we : Bool) (a : RegAddr) (d : Word) (hf : s.fsm = .idle) (hv : s.respValid = false) :
    step (s.present (.reg we a d))
      = andThen (exec (decodeReg we a d) (s.present (.reg we a d))) fun t => .next t.endPeriod := by
  have hport : exec (decodeReg we a d) (s.present (.reg we a d)) = .next (s.present (.reg we a d)).afterPort := by
    rw [State.afterPort, State.present_beginPeriod hv]
    exact registerPhase_idle (s := s.present (.reg we a d)) (presenting (.reg we a d)) hf
  have hstep := step_idle_quiet (s := s.present (.reg we a d)) rfl hf rfl
  rw [hstep, hport]
  rfl

end Presented

/-- Settles O18: the reset state is in IDLE without a response, and its STATUS reads 0x000FFF00. -/
theorem fetchWordRunsFirst : Obligations.FetchWordRunsFirst := by
  refine ⟨fun p w i hi => ?_, fun p nbits w i hn hi => ?_⟩
  · obtain rfl := Option.some.inj hi
    rw [← State.reset_status p]
    exact step_present_command _ rfl rfl
  · rcases hn with rfl | rfl <;> obtain rfl := Option.some.inj hi
    · exact step_present_access false _ _ rfl rfl
    · exact step_present_access true _ _ rfl rfl

end Sys2Proof.Machine
end

section
/-! PROOFS. The budgets, facc and the parameters (10_state.md R47; 45_host_commands.md R304; 70_reset_and_hazards.md R361):
the register access of an IDLE period writes the budgets, its command facc, and a running poll none of them. -/

namespace Sys2Proof.Machine

open Sys2Proof.Safety

/-- A command that writes facc is presented: FCHK.CLR or FCHK.ADD. -/
def presentsFaccWrite (i : Inputs) : Prop :=
  i.cmdValid = true ∧ (decodeCmd i.cmdWord = .fchkClr ∨ ∃ b, decodeCmd i.cmdWord = .fchkAdd b)

section HostRegisters

variable {s t : State} {i : Inputs}

/-! The register access of an IDLE period -/

theorem State.afterPort_facc (s : State) : s.afterPort.facc = s.facc := by rw [State.afterPort_toBlock]

theorem State.afterPort_stepBudget (s : State) :
    s.afterPort.stepBudget
      = if s.input.regWe = true ∧ s.input.regAddr = 0x01#6 then stepBudgetOf s.input.regWdata else s.stepBudget := by
  unfold State.afterPort
  cases s.input.regWe <;> simp

theorem State.afterPort_pollBudget (s : State) :
    s.afterPort.pollBudget
      = if s.input.regWe = true ∧ s.input.regAddr = 0x02#6 then s.input.regWdata.extractLsb' 0 24
        else s.pollBudget := by
  unfold State.afterPort
  cases s.input.regWe <;> simp

/-! The command of an IDLE period -/

theorem sameHostRegisters_startPoll (s : State) (link : Bool) : sameHostRegisters s (s.startPoll link) := by
  rcases s.startPoll_cases link with ⟨-, e⟩ | ⟨-, -, e⟩ | ⟨-, -, e⟩ <;> rw [e] <;> exact ⟨rfl, rfl, rfl, rfl⟩

theorem commandPhase_hostRegisters (hf : s.fsm = .idle) (ht : commandPhase i s = .next t) :
    ∃ a, (a = s.facc ∨ presentsFaccWrite i) ∧ sameHostRegisters { s with facc := a } t := by
  unfold commandPhase at ht
  split at ht
  · rename_i hv
    rcases exec_command_idle hf ht with ⟨c, d, a, -, -, ha, rfl⟩ | ⟨-, rfl⟩
    · exact ⟨a, ha.imp_right fun hw => ⟨hv, hw⟩, rfl, rfl, rfl, rfl⟩
    · exact ⟨s.facc, .inl rfl, sameHostRegisters_startPoll s _⟩
  · obtain rfl := Host.Outcome.next.inj ht
    exact ⟨s.facc, .inl rfl, rfl, rfl, rfl, rfl⟩

end HostRegisters

/-- Settles O57: in IDLE the register access and the command each have their own registers to write; a running poll has
none. -/
theorem hostRegistersChangeOnlyInIdle : Obligations.HostRegistersChangeOnlyInIdle := by
  intro s t hr ht
  by_cases hf : s.fsm = .idle
  · rw [step_idle hr hf, andThen_eq_next] at ht
    obtain ⟨u, hu, ht⟩ := ht
    obtain rfl := Host.Outcome.next.inj ht
    obtain ⟨a, ha, hstep, hpoll, hfacc, hparams⟩ := commandPhase_hostRegisters (by simpa using hf) hu
    refine ⟨hparams.trans s.afterPort_params, fun hne => ⟨hf, ?_⟩, fun hne => ⟨hf, ?_⟩, fun hne => ⟨hf, ?_⟩⟩
    · exact (ite_ne_right_iff.1 ((hstep.trans s.afterPort_stepBudget).symm.trans_ne hne)).1
    · exact (ite_ne_right_iff.1 ((hpoll.trans s.afterPort_pollBudget).symm.trans_ne hne)).1
    · exact ha.resolve_left fun hkept => hne ((hfacc.trans hkept).trans s.afterPort_facc)
  · obtain ⟨u, hu, rfl⟩ := step_busy_cases hr hf ht
    obtain ⟨hstep, hpoll, hfacc, hparams⟩ := (pollPeriod_acquire (s := s.busyStart) hf hu).host
    exact ⟨hparams, absurd hstep, absurd hpoll, absurd hfacc⟩

end Sys2Proof.Machine
end
